-- ==== Sys2Proof/Word.lean ====
section
/-! DEFINITION. The word types of the Calibration Engine (spec/00_scope.md R4, R5). -/

namespace Sys2Proof

/-- One byte of either address space (20_memory.md R60, R62). -/
abbrev Byte := BitVec 8

/-- One stored coefficient (10_state.md R20). -/
abbrev Half := BitVec 16

/-- One working register or datapath value, exactly 32 bits (00_scope.md R4, `DW`). Signed values are
two's complement and read with `toInt`, unsigned ones with `toNat`. -/
abbrev W32 := BitVec 32

end Sys2Proof
end

