-- ==== Sys2Proof/Config.lean ====
section
/-! DEFINITION. What one implementation fixes (spec/00_scope.md R4) and the free values, which no proof can
evaluate (spec/10_state.md R36, spec/00_scope.md R11). -/

namespace Sys2Proof

/-- The two roundings of the signed division (93_implementation_defined.md IM4). -/
inductive DivMode where
  /-- Truncation toward zero: what every rule of the spec uses. -/
  | trunc
  /-- Rounding toward minus infinity: the alternative a model may carry. -/
  | floor
  deriving DecidableEq, Repr

/-- `DIVMODE`, by default truncation (00_scope.md R4, R6; notes/assumptions/6.md). -/
def Config.divMode : DivMode := .trunc

/-- `SRC_ADDR_HI[i]`: where the load reads the most significant byte of coefficient `i`. OPEN in the spec
(00_scope.md R4, IM9), so it has no value here (notes/assumptions/7.md). -/
opaque Config.srcAddrHi : Fin 11 → Byte

/-- `SRC_ADDR_LO[i]`: where the load reads the least significant byte of coefficient `i` (R4, IM9). -/
opaque Config.srcAddrLo : Fin 11 → Byte

/-- Free value: the byte at a host address whose register holds no value, at one draw
(10_state.md R36, IM5; notes/assumptions/1.md). -/
opaque Config.freeByte : Nat → Byte → Byte

/-- Free value: a byte of `LDBUF` that holds no value, at one draw (10_state.md R36; notes/assumptions/1.md). -/
opaque Config.freeLoadByte : Nat → Nat → Byte

/-- Free value: the 9-bit response of the coefficient source to a request for which `Env.srcAnswers` lists none
(00_scope.md R11, 30_encoding.md R83; notes/assumptions/4.md). -/
opaque Config.freeAnswer : Nat → Byte → BitVec 9

/-- `ALT_FP` (00_scope.md R4, 44_altitude.md R172, IM16): how a host computes step 19. OPEN in the spec, so it is an
argument of what uses it and has no value here (notes/assumptions/15.md). -/
structure AltFp where
  /-- The values of the floating-point format. -/
  Value : Type
  /-- The real number a value denotes, if it denotes one. -/
  toReal : Value → Option ℝ
  /-- The altitude in metres, as a total function of the integer `PRESS`. -/
  altitude : Int → Value

end Sys2Proof
end

