-- ==== Sys2Proof/Syntax.lean ====
section
/-! DEFINITION. The instructions: one constructor for every row of spec/opcode_table.json, and the three formats
their words come in (spec/30_encoding.md R80). -/

namespace Sys2Proof

/-- Host transactions, commands and sequencer micro-steps (30_encoding.md R81, R82, R84, R85). -/
inductive Instr where
  /-- `RD a`: host byte read (R100). -/
  | rd (a : Byte)
  /-- `WR a, d`: host byte write, `a ≠ 0x17` (R101). -/
  | wr (a d : Byte)
  /-- Command byte 0x00 (R102). -/
  | nop
  /-- Command byte 0x01 (R103). -/
  | load
  /-- Command byte 0x02 (R105). -/
  | compensate
  /-- Command bytes 0x03 to 0xFF (R106). -/
  | cmdReserved (c : Byte)
  /-- Load micro-step number `k`, 0 to 21 (R104). -/
  | ldstep (k : BitVec 5)
  | u1 | u2 | u3 | u4 | u5 | u6 | u7 | u8 | u9
  | u10 | u11 | u12 | u13 | u14 | u15 | u16 | u17 | u18
  deriving DecidableEq, Repr

/-- An instruction's word in its format (30_encoding.md R80). Formats L and U use the same 5-bit values; which of
the two a value belongs to is not in its bits (`MODE` tells, R84, R85), so the format is part of the word. -/
inductive Code where
  /-- Format H: `W` bit 16, `ADDR` bits 15:8, `DATA` bits 7:0 (R81). -/
  | host (t : BitVec 17)
  /-- Format L: the value of `LDCNT` (R85). -/
  | load (k : BitVec 5)
  /-- Format U: the value of `STEP` (R84). -/
  | pipe (n : BitVec 5)
  deriving DecidableEq, Repr

end Sys2Proof
end

