-- ==== Sys2Proof/WellFormed.lean ====
section
/-! DEFINITION. Which terms of `Instr` are instructions of the block (spec/30_encoding.md R82, R85, R87). -/

namespace Sys2Proof

/-- The operand checks: a generic write does not address `CMD` (R101), a reserved command byte is 0x03 to 0xFF
(R82, R106), and a load micro-step is numbered 0 to 21 (R85). -/
def Instr.wellFormed : Instr → Bool
  | .rd _ => true
  | .wr a _ => a ≠ 0x17#8
  | .nop => true
  | .load => true
  | .compensate => true
  | .cmdReserved c => 3 ≤ c.toNat
  | .ldstep k => k.toNat ≤ 21
  | .u1 => true
  | .u2 => true
  | .u3 => true
  | .u4 => true
  | .u5 => true
  | .u6 => true
  | .u7 => true
  | .u8 => true
  | .u9 => true
  | .u10 => true
  | .u11 => true
  | .u12 => true
  | .u13 => true
  | .u14 => true
  | .u15 => true
  | .u16 => true
  | .u17 => true
  | .u18 => true

/-- The instruction is one the block can be given. -/
abbrev WellFormed (i : Instr) : Prop := i.wellFormed = true

end Sys2Proof
end

