-- ==== Sys2Proof/Decode.lean ====
section
/-! DEFINITION. Decoding and encoding of the words of spec/30_encoding.md (R81 to R89), and the opcode table's rows. -/

namespace Sys2Proof

/-- `ADDR`, bits 15:8 of a Format H word (R81). -/
def addrField (t : BitVec 17) : Byte := t.extractLsb' 8 8

/-- `DATA`, bits 7:0 of a Format H word (R81). -/
def dataField (t : BitVec 17) : Byte := t.extractLsb' 0 8

/-- A command byte (R82): `NOP`, `LOAD`, `COMPENSATE`, all others reserved. -/
def decodeCommand (c : Byte) : Instr :=
  if c = 0x00#8 then .nop
  else if c = 0x01#8 then .load
  else if c = 0x02#8 then .compensate
  else .cmdReserved c

/-- A host transaction word (R87). Every 17-bit word decodes to exactly one instruction. -/
def decodeHost (t : BitVec 17) : Instr :=
  if t.getLsbD 16 then
    if addrField t = 0x17#8 then decodeCommand (dataField t) else .wr (addrField t) (dataField t)
  else .rd (addrField t)

/-- Why a word is no instruction. Host words never are (R87); these are the values of `STEP` and `LDCNT` that
select no micro-step (R84, R85). -/
inductive Reject where
  /-- Format L values 22 to 31 are never taken (R85). -/
  | noLoadStep (k : BitVec 5)
  /-- Format U values 0 and 19 to 31 select no micro-step (R84). -/
  | noPipelineStep (n : BitVec 5)
  deriving DecidableEq, Repr

/-- A load micro-step (R85). -/
def decodeLoad (k : BitVec 5) : Except Reject Instr :=
  if k.toNat ≤ 21 then .ok (.ldstep k) else .error (.noLoadStep k)

/-- A pipeline micro-step: `STEP = n` selects `Un` (R84). -/
def decodePipe (n : BitVec 5) : Except Reject Instr :=
  match n.toNat with
  | 1 => .ok .u1
  | 2 => .ok .u2
  | 3 => .ok .u3
  | 4 => .ok .u4
  | 5 => .ok .u5
  | 6 => .ok .u6
  | 7 => .ok .u7
  | 8 => .ok .u8
  | 9 => .ok .u9
  | 10 => .ok .u10
  | 11 => .ok .u11
  | 12 => .ok .u12
  | 13 => .ok .u13
  | 14 => .ok .u14
  | 15 => .ok .u15
  | 16 => .ok .u16
  | 17 => .ok .u17
  | 18 => .ok .u18
  | _ => .error (.noPipelineStep n)

/-- The decoder, total on the words of all three formats. -/
def decode : Code → Except Reject Instr
  | .host t => .ok (decodeHost t)
  | .load k => decodeLoad k
  | .pipe n => decodePipe n

/-- The Format H word of a read, `DATA` 0 as in the canonical encoding (R81). -/
def rdWord (a : Byte) : BitVec 17 := 0#1 ++ a ++ 0#8

/-- The Format H word of a write (R81). -/
def wrWord (a d : Byte) : BitVec 17 := 1#1 ++ a ++ d

/-- The word of an instruction: commands are writes to 0x17 (R82), micro-steps are their number (R84, R85). -/
def encode : Instr → Code
  | .rd a => .host (rdWord a)
  | .wr a d => .host (wrWord a d)
  | .nop => .host (wrWord 0x17#8 0x00#8)
  | .load => .host (wrWord 0x17#8 0x01#8)
  | .compensate => .host (wrWord 0x17#8 0x02#8)
  | .cmdReserved c => .host (wrWord 0x17#8 c)
  | .ldstep k => .load k
  | .u1 => .pipe 1#5
  | .u2 => .pipe 2#5
  | .u3 => .pipe 3#5
  | .u4 => .pipe 4#5
  | .u5 => .pipe 5#5
  | .u6 => .pipe 6#5
  | .u7 => .pipe 7#5
  | .u8 => .pipe 8#5
  | .u9 => .pipe 9#5
  | .u10 => .pipe 10#5
  | .u11 => .pipe 11#5
  | .u12 => .pipe 12#5
  | .u13 => .pipe 13#5
  | .u14 => .pipe 14#5
  | .u15 => .pipe 15#5
  | .u16 => .pipe 16#5
  | .u17 => .pipe 17#5
  | .u18 => .pipe 18#5

/-- The bits of a word as a number, bit 0 least significant. -/
def Code.bits : Code → Nat
  | .host t => t.toNat
  | .load k => k.toNat
  | .pipe n => n.toNat

/-- The row of opcode_table.json, `(match, mask)`. `LDSTEP`'s row fixes no bit. -/
def Instr.row : Instr → Nat × Nat
  | .rd _ => (0x00000, 0x10000)
  | .wr _ _ => (0x10000, 0x10000)
  | .nop => (0x11700, 0x1FFFF)
  | .load => (0x11701, 0x1FFFF)
  | .compensate => (0x11702, 0x1FFFF)
  | .cmdReserved _ => (0x11700, 0x1FF00)
  | .ldstep _ => (0x00, 0x00)
  | .u1 => (0x01, 0x1F)
  | .u2 => (0x02, 0x1F)
  | .u3 => (0x03, 0x1F)
  | .u4 => (0x04, 0x1F)
  | .u5 => (0x05, 0x1F)
  | .u6 => (0x06, 0x1F)
  | .u7 => (0x07, 0x1F)
  | .u8 => (0x08, 0x1F)
  | .u9 => (0x09, 0x1F)
  | .u10 => (0x0A, 0x1F)
  | .u11 => (0x0B, 0x1F)
  | .u12 => (0x0C, 0x1F)
  | .u13 => (0x0D, 0x1F)
  | .u14 => (0x0E, 0x1F)
  | .u15 => (0x0F, 0x1F)
  | .u16 => (0x10, 0x1F)
  | .u17 => (0x11, 0x1F)
  | .u18 => (0x12, 0x1F)

/-- A coefficient-source response (Format S, R83): bit 8 `FAIL`, bits 7:0 `SDATA`. `none` is the token `FAIL`. -/
def responseByte (r : BitVec 9) : Option Byte :=
  if r.getLsbD 8 then none else some (r.extractLsb' 0 8)

/-- Which word a number of the opcode table stands for: at most 8 bits is a 5-bit micro-step, more is a host word.
1 to 18 are taken as Format U and 0 and 19 to 21 as Format L, which alone has them (notes/assumptions/12.md). -/
def tableCode (nbits w : Nat) : Option Code :=
  if nbits ≤ 8 then
    if 1 ≤ w ∧ w ≤ 18 then some (.pipe (BitVec.ofNat 5 w))
    else if w < 32 then some (.load (BitVec.ofNat 5 w))
    else none
  else if w < 2 ^ 17 then some (.host (BitVec.ofNat 17 w))
  else none

/-- The instruction the decoder reads from a number of the opcode table. -/
def decodeTableWord (nbits w : Nat) : Option Instr :=
  match tableCode nbits w with
  | none => none
  | some c =>
    match decode c with
    | .ok i => some i
    | .error _ => none

end Sys2Proof
end

