-- ==== Sys2Proof/Machine/State.lean ====
section
/-! DEFINITION. The state of one Calibration Engine (spec/10_state.md), what stands outside it as plain data, the
reasons a step can stop, and the state after reset (R37). -/

namespace Sys2Proof.Machine

/-- `MODE` (10_state.md R31). -/
inductive Mode where
  | idle
  | loading
  | computing
  deriving DecidableEq, Repr

/-- The three fault causes of the block (60_exceptions.md R180). -/
inductive Cause where
  | transport
  | div0
  | ovf
  deriving DecidableEq, Repr

/-- The block itself. A data register is `none` while it HOLDS NO VALUE, which is the spec's own state of it and
its reset value (R36, R37); reading one is never a fault but a free value (notes/assumptions/1.md). -/
structure CE where
  /-- `COEF[0..10]`: all 11 entries hold a value or none does (R20, R21). -/
  coef : Option (Vector Half 11)
  /-- `CVALID` (R21). -/
  cvalid : Bool
  /-- `OSS_IN` (R23). -/
  ossIn : Byte
  /-- The six bytes of `UT` (0x18, 0x19) and `UP` (0x1A to 0x1D); byte `k` has host address `0x18 + k` (R24, R25). -/
  sample : Vector (Option Byte) 6
  /-- `SW[0..5]` (R26). -/
  sw : Vector Bool 6
  /-- The nine working registers (R27). -/
  x1 : Option W32
  x2 : Option W32
  x3 : Option W32
  b3 : Option W32
  b4 : Option W32
  b5 : Option W32
  b6 : Option W32
  b7 : Option W32
  p : Option W32
  /-- `TEMP` and `PRESS` (R29). -/
  temp : Option W32
  press : Option W32
  /-- `STEP` (R30). -/
  step : BitVec 5
  /-- `MODE`, `LDCNT`, `LDBUF[0..21]` (R31). -/
  mode : Mode
  ldcnt : BitVec 5
  ldbuf : Vector (Option Byte) 22
  /-- `DONE`, `FAULT`, `IGN` (R32). -/
  done : Bool
  fault : Bool
  ign : Bool
  /-- `FINFO`: `CAUSE` bits 7:5, `FSTEP` bits 4:0 (R33). -/
  finfo : Byte
  deriving DecidableEq, Repr

/-- Who moves: a host transaction word arrives (30_encoding.md R81), the sequencer takes its turn (00_scope.md
R11), or reset is asserted between two transactions (70_reset_and_hazards.md R200). -/
inductive Event where
  | host (t : BitVec 17)
  | seq
  | reset
  deriving DecidableEq, Repr

/-- What stands outside the block. None of these is the spec's state: they hold the outside world's choices and
answers as plain data (notes/assumptions/2.md to 5.md). -/
structure Env where
  /-- The agents' moves still to come, first one next; when none is left the sequencer has the turn (R12, R211). -/
  events : List Event
  /-- What the coefficient source makes of the reads still to come, first one next: a Format S response (R83), or `none`
  for a read it never answers (R209, IM14). -/
  srcAnswers : List (Option (BitVec 9))
  /-- The coefficient source never answers a read for which nothing is listed (R209, IM14). -/
  srcSilent : Bool
  /-- `RDATA` of every host read so far, newest first (R81). -/
  hostAnswers : List Byte
  /-- `SADDR` of every coefficient-source read so far, newest first (R83). -/
  srcRequests : List Byte
  /-- Index of the free values of the next transition (R36). -/
  draws : Nat
  deriving DecidableEq, Repr

/-- One Calibration Engine and what stands outside it. -/
structure State where
  ce : CE
  env : Env
  deriving DecidableEq, Repr

/-- Why a step stops. The block's own faults (60_exceptions.md R180) are next states, not these. -/
inductive Fault where
  /-- Raised by `step` alone, when the sequencer has the turn in a position that selects no micro-step: `STEP` 0 or
  19 to 31 while computing, `LDCNT` 22 to 31 while loading. The spec says these values are never taken (30_encoding.md
  R84, R85). Safe: the model stops in states that no run reaches (notes/assumptions/10.md). -/
  | sequencerLost
  deriving DecidableEq, Repr

/-- Why an instruction has no meaning. -/
inductive Refusal where
  /-- Raised by an arm of `exec` whose instruction is not modelled yet; no arm is. Safe: the model stops. -/
  | notModelled (mnemonic : String)
  deriving DecidableEq, Repr

/-- The block after reset (10_state.md R37). -/
def CE.reset : CE where
  coef := none
  cvalid := false
  ossIn := 0x00#8
  sample := #v[none, none, none, none, none, none]
  sw := #v[false, false, false, false, false, false]
  x1 := none
  x2 := none
  x3 := none
  b3 := none
  b4 := none
  b5 := none
  b6 := none
  b7 := none
  p := none
  temp := none
  press := none
  step := 0#5
  mode := .idle
  ldcnt := 0#5
  ldbuf := #v[none, none, none, none, none, none, none, none, none, none, none,
    none, none, none, none, none, none, none, none, none, none, none]
  done := false
  fault := false
  ign := false
  finfo := 0x00#8

/-- Nothing outside the block has happened or been asked yet (DESIGN CHOICE, notes/assumptions/2.md to 5.md). -/
def Env.initial : Env where
  events := []
  srcAnswers := []
  srcSilent := false
  hostAnswers := []
  srcRequests := []
  draws := 0

/-- The machine right after reset (10_state.md R37). -/
def State.reset : State where
  ce := CE.reset
  env := Env.initial

end Sys2Proof.Machine
end

