-- ==== Sys2Proof/Machine/Ops.lean ====
section
/-! DEFINITION. The arithmetic primitives (spec/00_scope.md R6 to R8), fault entry (spec/60_exceptions.md R183) and the
operations every instruction is written over. -/

namespace Sys2Proof.Machine

/-! ## Signed primitives (R6) -/

/-- `SMIN ≤ r ≤ SMAX` (R6). -/
def fitsS32 (r : Int) : Bool := decide (-2147483648 ≤ r ∧ r ≤ 2147483647)

/-- The exact result, or `OVF` when it is outside the signed 32-bit range (R6). -/
def narrowS32 (r : Int) : Except Cause W32 :=
  if fitsS32 r then .ok (BitVec.ofInt 32 r) else .error .ovf

/-- `sadd32` (R6). -/
def sadd32 (a b : W32) : Except Cause W32 := narrowS32 (a.toInt + b.toInt)

/-- `ssub32` (R6). -/
def ssub32 (a b : W32) : Except Cause W32 := narrowS32 (a.toInt - b.toInt)

/-- `smul32` (R6). -/
def smul32 (a b : W32) : Except Cause W32 := narrowS32 (a.toInt * b.toInt)

/-- `sshl32`: the left shift of a signed value is the exact product by `2^k` (R6, D3). -/
def sshl32 (a : W32) (k : Nat) : Except Cause W32 := narrowS32 (a.toInt * 2 ^ k)

/-- `asr32`: arithmetic right shift, `floor(A / 2^k)`; never faults (R6, D2). -/
def asr32 (a : W32) (k : Nat) : W32 := BitVec.ofInt 32 (a.toInt / 2 ^ k)

/-- The quotient of two integers in one of the two roundings (R6, IM4). -/
def divRound (m : DivMode) (a b : Int) : Int :=
  match m with
  | .trunc => a.tdiv b
  | .floor => a.fdiv b

/-- `sdiv32` with its rounding as a parameter (IM4). -/
def sdiv32With (m : DivMode) (a b : W32) : Except Cause W32 :=
  if b.toInt = 0 then .error .div0 else narrowS32 (divRound m a.toInt b.toInt)

/-- `sdiv32`: `DIV0` for a zero divisor, else the quotient in the configured rounding, by default toward zero (R6). -/
def sdiv32 (a b : W32) : Except Cause W32 := sdiv32With Config.divMode a b

/-! ## Unsigned primitives (R7): reduction modulo 2^32, no `OVF` -/

/-- `uadd32` (R7). -/
def uadd32 (a b : W32) : W32 := BitVec.ofNat 32 (a.toNat + b.toNat)

/-- `usub32` (R7). -/
def usub32 (a b : W32) : W32 := BitVec.ofInt 32 ((a.toNat : Int) - (b.toNat : Int))

/-- `umul32` (R7). -/
def umul32 (a b : W32) : W32 := BitVec.ofNat 32 (a.toNat * b.toNat)

/-- `lsr32`: logical right shift (R7). -/
def lsr32 (a : W32) (k : Nat) : W32 := BitVec.ofNat 32 (a.toNat / 2 ^ k)

/-- `udiv32`: `DIV0` for a zero divisor (R7). -/
def udiv32 (a b : W32) : Except Cause W32 :=
  if b.toNat = 0 then .error .div0 else .ok (BitVec.ofNat 32 (a.toNat / b.toNat))

/-! ## Conversions (R8) -/

/-- `to_u32`: the integer modulo 2^32; never faults (R8). -/
def toU32 (a : W32) : W32 := BitVec.ofInt 32 a.toInt

/-- `to_s32`: `OVF` for 2^31 or more (R8). -/
def toS32 (u : W32) : Except Cause W32 :=
  if u.toNat ≥ 2 ^ 31 then .error .ovf else .ok u

/-! ## Updates of the state -/

/-- The state with another block. -/
def State.withCE (s : State) (c : CE) : State := { s with ce := c }

/-- The reads still to come once the one at hand, which the source never answers, has been given up. -/
def giveUpUnanswered : List (Option (BitVec 9)) → List (Option (BitVec 9))
  | [] => []
  | some r :: rs => some r :: rs
  | none :: rs => rs

/-- The reads still to come after a reset: a load that waits for an answer it never gets is abandoned with its read
(70_reset_and_hazards.md R200, R209; notes/assumptions/4.md). -/
def State.answersAfterReset (s : State) : List (Option (BitVec 9)) :=
  match s.ce.mode with
  | .idle => s.env.srcAnswers
  | .loading => giveUpUnanswered s.env.srcAnswers
  | .computing => s.env.srcAnswers

/-- Reset of the block, in any state (70_reset_and_hazards.md R200); what stands outside keeps its course, but for a read
that is abandoned with its load (notes/assumptions/4.md, 11.md). -/
def State.applyReset (s : State) : State :=
  { ce := CE.reset, env := { s.env with srcAnswers := s.answersAfterReset } }

/-- `CAUSE` codes (60_exceptions.md R180). -/
def Cause.code : Cause → BitVec 3
  | .transport => 1#3
  | .div0 => 2#3
  | .ovf => 3#3

/-- The block after fault entry `(c, n)` (60_exceptions.md R183). There is no return from a fault (R184). -/
def CE.faultEntry (b : CE) (c : Cause) (n : BitVec 5) : CE :=
  { b with finfo := c.code ++ n, fault := true, mode := .idle, step := 0#5, ldcnt := 0#5 }

/-- `raise Fault(c, n)`: takes the fault, in the transition that raised it (60_exceptions.md R183). -/
def raiseFault (c : Cause) (n : BitVec 5) (s : State) : State := s.withCE (s.ce.faultEntry c n)

/-- The end of pipeline step `n`: its value is written and the sequencer moves on, or the first primitive that
failed raises its fault and the destination is not written (00_scope.md R9). -/
def State.settle (s : State) (n : BitVec 5) (r : Except Cause W32) (put : CE → W32 → CE) : State :=
  match r with
  | .ok v => s.withCE (put s.ce v)
  | .error c => raiseFault c n s

/-- A host read is answered with one byte (30_encoding.md R81); the block is untouched (20_memory.md R68). -/
def State.answer (s : State) (d : Byte) : State :=
  { s with env := { s.env with hostAnswers := d :: s.env.hostAnswers } }

/-! ## The coefficient-source port (R62, R83) -/

/-- The address load micro-step `k` presents: byte `k mod 2` (0 most significant) of coefficient `k div 2`
(30_encoding.md R85, 40_host_access_and_commands.md R104). -/
def srcAddr (k : BitVec 5) : Byte :=
  if k.toNat % 2 = 0 then Config.srcAddrHi (Fin.ofNat 11 (k.toNat / 2))
  else Config.srcAddrLo (Fin.ofNat 11 (k.toNat / 2))

/-- The source answers the read at hand (70_reset_and_hazards.md R209, R211). -/
def State.sourceAnswers (s : State) : Bool :=
  match s.env.srcAnswers with
  | some _ :: _ => true
  | none :: _ => false
  | [] => !s.env.srcSilent

/-- `SrcRead(a)`: the source's next answer, an unconstrained one when none is listed (00_scope.md R11). -/
def State.srcAnswer (s : State) (a : Byte) : BitVec 9 :=
  match s.env.srcAnswers with
  | some r :: _ => r
  | none :: _ => Config.freeAnswer s.env.draws a
  | [] => Config.freeAnswer s.env.draws a

/-- The request has been made and its answer used up. -/
def State.afterRequest (s : State) (a : Byte) : State :=
  { s with env := { s.env with srcAnswers := s.env.srcAnswers.tail, srcRequests := a :: s.env.srcRequests } }

/-! ## Bytes of a register (big-endian, 20_memory.md R64) -/

/-- Byte `j` of a 32-bit register, byte 0 holding bits 31:24 (R64). -/
def byteOf32 (v : W32) (j : Nat) : Byte := v.extractLsb' (8 * (3 - j)) 8

/-- Byte `j` of a 16-bit register, byte 0 holding bits 15:8 (R64). -/
def byteOf16 (v : Half) (j : Nat) : Byte := v.extractLsb' (8 * (1 - j)) 8

/-- Byte `j` of a 32-bit register at host address `a`, free when the register holds no value (R36, R100). -/
def regByte (draws : Nat) (a : Byte) (r : Option W32) (j : Nat) : Byte :=
  match r with
  | some v => byteOf32 v j
  | none => Config.freeByte draws a

end Sys2Proof.Machine
end

