-- ==== Sys2Proof/Machine/Flags.lean ====
section
/-! DEFINITION. The flags (spec/10_state.md R26, R31, R32) and the ignored write (spec/60_exceptions.md R186). The block has
no condition codes: no pipeline step writes a flag (R35). -/

namespace Sys2Proof.Machine

/-- `SRDY`: all six bytes of `UT` and `UP` written since the last accepted `COMPENSATE` (R26). -/
def CE.srdy (c : CE) : Bool := c.sw[0] && c.sw[1] && c.sw[2] && c.sw[3] && c.sw[4] && c.sw[5]

/-- `BUSY`: `MODE` is not `IDLE` (R31). -/
def CE.busy (c : CE) : Bool :=
  match c.mode with
  | .idle => false
  | .loading => true
  | .computing => true

/-- `LDG`: `MODE` is `LOADING` (R31). -/
def CE.ldg (c : CE) : Bool :=
  match c.mode with
  | .idle => false
  | .loading => true
  | .computing => false

/-- `STATUS` as read (R32): bit 7 reserved and 0, then `LDG`, `IGN`, `FAULT`, `DONE`, `BUSY`, `SRDY`, `CVALID`. -/
def CE.status (c : CE) : Byte :=
  0#1 ++ BitVec.ofBool c.ldg ++ BitVec.ofBool c.ign ++ BitVec.ofBool c.fault ++ BitVec.ofBool c.done
    ++ BitVec.ofBool c.busy ++ BitVec.ofBool c.srdy ++ BitVec.ofBool c.cvalid

/-- `CAUSE`, bits 7:5 of `FINFO` (R33). -/
def CE.cause (c : CE) : BitVec 3 := c.finfo.extractLsb' 5 3

/-- `FSTEP`, bits 4:0 of `FINFO` (R33). -/
def CE.fstep (c : CE) : BitVec 5 := c.finfo.extractLsb' 0 5

/-- Idle in the sense of 40_host_access_and_commands.md R108: `BUSY = 0` and `FAULT = 0`. -/
def CE.accepts (c : CE) : Bool := !c.fault && !c.busy

/-- An ignored write: nothing changes but `IGN <- 1` (R186). -/
def State.ignoreWrite (s : State) : State := s.withCE { s.ce with ign := true }

end Sys2Proof.Machine
end

