-- ==== Sys2Proof/Machine/Commands.lean ====
section
/-! DEFINITION. The commands and the load micro-step (spec/40_host_access_and_commands.md R102 to R106). -/

namespace Sys2Proof.Machine

/-- `NOP`: no effect, not even `IGN`, in any state (R102). -/
def execNop (s : State) : Host.Outcome State Fault Refusal := .next s

/-- The state after a `LOAD` command (R103). -/
def State.loadCommand (s : State) : State :=
  if s.ce.accepts && !s.ce.cvalid then s.withCE { s.ce with mode := .loading, ldcnt := 0#5 }
  else s.ignoreWrite

/-- `LOAD` (R103). -/
def execLoad (s : State) : Host.Outcome State Fault Refusal := .next s.loadCommand

/-- The state after a `COMPENSATE` command (R105). -/
def State.compensateCommand (s : State) : State :=
  if s.ce.accepts && s.ce.cvalid && s.ce.srdy then
    s.withCE { s.ce with
      mode := .computing, step := 1#5, done := false, sw := #v[false, false, false, false, false, false] }
  else s.ignoreWrite

/-- `COMPENSATE` (R105). -/
def execCompensate (s : State) : Host.Outcome State Fault Refusal := .next s.compensateCommand

/-- A reserved command byte: ignored, whatever it is and in every state (R106). -/
def execCmdReserved (_c : Byte) (s : State) : Host.Outcome State Fault Refusal := .next s.ignoreWrite

/-- `LDBUF[j]`, free while it holds no value (10_state.md R36). -/
def loadByte (draws : Nat) (buf : Vector (Option Byte) 22) (j : Fin 22) : Byte :=
  match buf[j] with
  | some d => d
  | none => Config.freeLoadByte draws j.val

/-- `LDBUF[2i] ++ LDBUF[2i+1]` (20_memory.md R65, 30_encoding.md R86). -/
def loadWord (draws : Nat) (buf : Vector (Option Byte) 22) (i : Fin 11) : Half :=
  loadByte draws buf ⟨2 * i.val, by omega⟩ ++ loadByte draws buf ⟨2 * i.val + 1, by omega⟩

/-- The whole coefficient file from the load buffer (R104). -/
def loadFile (draws : Nat) (buf : Vector (Option Byte) 22) : Vector Half 11 :=
  #v[loadWord draws buf 0, loadWord draws buf 1, loadWord draws buf 2, loadWord draws buf 3,
    loadWord draws buf 4, loadWord draws buf 5, loadWord draws buf 6, loadWord draws buf 7,
    loadWord draws buf 8, loadWord draws buf 9, loadWord draws buf 10]

/-- The block after read `k` has answered byte `d`: the byte is kept, and the 22nd one commits all 11 coefficients
and `CVALID` at once (R104). -/
def CE.takeLoadByte (c : CE) (draws : Nat) (k : BitVec 5) (d : Byte) : CE :=
  let buf := c.ldbuf.setIfInBounds k.toNat (some d)
  if k.toNat < 21 then { c with ldbuf := buf, ldcnt := k + 1#5 }
  else { c with ldbuf := buf, coef := some (loadFile draws buf), cvalid := true, mode := .idle, ldcnt := 0#5 }

/-- The state after load micro-step `k` (R104). -/
def State.loadStep (s : State) (k : BitVec 5) : State :=
  match responseByte (s.srcAnswer (srcAddr k)) with
  | none => raiseFault .transport k (s.afterRequest (srcAddr k))
  | some d => (s.afterRequest (srcAddr k)).withCE (s.ce.takeLoadByte s.env.draws k d)

/-- `LDSTEP` number `k` (R104). -/
def execLdstep (k : BitVec 5) (s : State) : Host.Outcome State Fault Refusal := .next (s.loadStep k)

end Sys2Proof.Machine
end

