-- ==== Sys2Proof/Machine/Lut.lean ====
section
/-! DEFINITION. The oversampling lookup table (spec/41_oversampling_lut.md), combinational: functions of `OSS_IN` (R124). -/

namespace Sys2Proof.Machine

/-- `OSS_EFF`: the setting clamped to 0 when it is outside 0 to 3 (R120). -/
def ossEff (ossIn : Byte) : Nat := if ossIn.toNat ≤ 3 then ossIn.toNat else 0

/-- `TCONV` in microseconds (R121). -/
def tconv (oss : Nat) : Half :=
  match oss with
  | 0 => 4500#16
  | 1 => 7500#16
  | 2 => 13500#16
  | _ => 25500#16

/-- `K(oss) = lsr32(50000, oss)`, used by step 14 (R122). -/
def scaleK (oss : Nat) : W32 := BitVec.ofNat 32 (50000 / 2 ^ oss)

/-- `SH(oss)`, used by step 9 (R123). -/
def shiftSH (oss : Nat) : Nat := oss

/-- The documented width of `UP` in bits. No step reads it and the block checks nothing: the register takes any 32-bit
value (10_state.md R25, R125). -/
def upWidth (oss : Nat) : Nat := 16 + oss

end Sys2Proof.Machine
end

