-- ==== Sys2Proof/Machine/Operands.lean ====
section
/-! DEFINITION. The operands of the pipeline steps (spec/30_encoding.md R86, spec/00_scope.md R8). A register that holds
no value is read as a free value (spec/10_state.md R36); no reachable step reads one. -/

namespace Sys2Proof.Machine

/-- The value of a 32-bit register at host address `a`; four free bytes while it holds none (R36). -/
def regValue (draws : Nat) (a : Byte) (r : Option W32) : W32 :=
  match r with
  | some v => v
  | none => Config.freeByte draws a ++ Config.freeByte draws (a + 1#8) ++ Config.freeByte draws (a + 2#8)
      ++ Config.freeByte draws (a + 3#8)

/-- The 16 stored bits of `COEF[i]` (R20). -/
def State.coefBits (s : State) (i : Fin 11) : Half :=
  match s.ce.coef with
  | some f => f[i]
  | none => Config.freeByte s.env.draws (BitVec.ofNat 8 (2 * i.val))
      ++ Config.freeByte s.env.draws (BitVec.ofNat 8 (2 * i.val + 1))

/-- Indices 3, 4, 5 are unsigned, all others signed (R4, R20). -/
def coefUnsigned (i : Fin 11) : Bool := i.val = 3 || i.val = 4 || i.val = 5

/-- `coef(i)`: the entry widened to 32 bits by its type (R8, R20). -/
def State.coefValue (s : State) (i : Fin 11) : W32 :=
  if coefUnsigned i then (s.coefBits i).setWidth 32 else (s.coefBits i).signExtend 32

def State.a1 (s : State) : W32 := s.coefValue 0
def State.a2 (s : State) : W32 := s.coefValue 1
def State.a3 (s : State) : W32 := s.coefValue 2
def State.a4 (s : State) : W32 := s.coefValue 3
def State.a5 (s : State) : W32 := s.coefValue 4
def State.a6 (s : State) : W32 := s.coefValue 5
def State.cb1 (s : State) : W32 := s.coefValue 6
def State.cb2 (s : State) : W32 := s.coefValue 7
/-- `MB` is loaded and held, and no step reads it (R22). -/
def State.mb (s : State) : W32 := s.coefValue 8
def State.mc (s : State) : W32 := s.coefValue 9
def State.md (s : State) : W32 := s.coefValue 10

/-- Sample byte `k`, at host address `0x18 + k` (R24, R25). -/
def State.sampleByte (s : State) (k : Fin 6) : Byte :=
  match s.ce.sample[k] with
  | some d => d
  | none => Config.freeByte s.env.draws (BitVec.ofNat 8 (0x18 + k.val))

/-- `UT`, 16 bits (R86). -/
def State.utBits (s : State) : Half := s.sampleByte 0 ++ s.sampleByte 1

/-- `zext_32(UT)` (R24). -/
def State.ut (s : State) : W32 := s.utBits.setWidth 32

/-- `UP`, 32 bits (R25, R86). -/
def State.up (s : State) : W32 := s.sampleByte 2 ++ s.sampleByte 3 ++ s.sampleByte 4 ++ s.sampleByte 5

/-- The working registers as operands, each with its debug address (R27). -/
def State.x1 (s : State) : W32 := regValue s.env.draws 0x30#8 s.ce.x1
def State.x2 (s : State) : W32 := regValue s.env.draws 0x34#8 s.ce.x2
def State.x3 (s : State) : W32 := regValue s.env.draws 0x38#8 s.ce.x3
def State.b3 (s : State) : W32 := regValue s.env.draws 0x3C#8 s.ce.b3
def State.b4 (s : State) : W32 := regValue s.env.draws 0x40#8 s.ce.b4
def State.b5 (s : State) : W32 := regValue s.env.draws 0x44#8 s.ce.b5
def State.b6 (s : State) : W32 := regValue s.env.draws 0x48#8 s.ce.b6
def State.b7 (s : State) : W32 := regValue s.env.draws 0x4C#8 s.ce.b7
def State.p (s : State) : W32 := regValue s.env.draws 0x50#8 s.ce.p

/-- `TEMP` and `PRESS` as the host reads them (R29). -/
def State.temp (s : State) : W32 := regValue s.env.draws 0x20#8 s.ce.temp
def State.press (s : State) : W32 := regValue s.env.draws 0x24#8 s.ce.press

/-- The effective oversampling level of the state (41_oversampling_lut.md R120). -/
def State.oss (s : State) : Nat := ossEff s.ce.ossIn

end Sys2Proof.Machine
end

