-- ==== Sys2Proof/Machine/HostAccess.lean ====
section
/-! DEFINITION. Host byte read and host byte write (spec/40_host_access_and_commands.md R100, R101). -/

namespace Sys2Proof.Machine

/-- The working register at offset `4 * n` of the debug window (10_state.md R27, R38). -/
def CE.window (c : CE) (n : Nat) : Option W32 :=
  match n with
  | 0 => c.x1
  | 1 => c.x2
  | 2 => c.x3
  | 3 => c.b3
  | 4 => c.b4
  | 5 => c.b5
  | 6 => c.b6
  | 7 => c.b7
  | _ => c.p

/-- A byte of the coefficient file: its value while `CVALID = 1`, else unspecified (R100). -/
def State.readCoef (s : State) (a : Byte) : Byte :=
  if s.ce.cvalid then byteOf16 (s.coefBits (Fin.ofNat 11 (a.toNat / 2))) (a.toNat % 2)
  else Config.freeByte s.env.draws a

/-- The byte a host read of address `a` returns (R100): the register map of 10_state.md R38. -/
def State.readByte (s : State) (a : Byte) : Byte :=
  if a.toNat ≤ 0x15 then s.readCoef a
  else if a.toNat = 0x16 then s.ce.ossIn
  else if a.toNat = 0x17 then 0x00#8
  else if a.toNat ≤ 0x1D then s.sampleByte (Fin.ofNat 6 (a.toNat - 0x18))
  else if a.toNat = 0x1E then s.ce.status
  else if a.toNat = 0x1F then s.ce.finfo
  else if a.toNat ≤ 0x23 then regByte s.env.draws a s.ce.temp (a.toNat - 0x20)
  else if a.toNat ≤ 0x27 then regByte s.env.draws a s.ce.press (a.toNat - 0x24)
  else if a.toNat ≤ 0x29 then byteOf16 (tconv s.oss) (a.toNat - 0x28)
  else if a.toNat = 0x2A then BitVec.ofNat 8 s.oss
  else if a.toNat = 0x2B then s.ce.step.setWidth 8
  else if a.toNat ≤ 0x2F then 0x00#8
  else if a.toNat ≤ 0x53 then regByte s.env.draws a (s.ce.window ((a.toNat - 0x30) / 4)) ((a.toNat - 0x30) % 4)
  else 0x00#8

/-- `RD a`: answered with one byte in every state; the block does not change (R100, 20_memory.md R68). -/
def execRd (a : Byte) (s : State) : Host.Outcome State Fault Refusal := .next (s.answer (s.readByte a))

/-- The block after an accepted write of sample byte `k` (R26, R101). -/
def CE.storeSample (c : CE) (k : Nat) (d : Byte) : CE :=
  { c with sample := c.sample.setIfInBounds k (some d), sw := c.sw.setIfInBounds k true }

/-- A host write of address `a` (R101). -/
def State.writeByte (s : State) (a d : Byte) : State :=
  if !s.ce.accepts then s.ignoreWrite
  else if a.toNat = 0x16 then s.withCE { s.ce with ossIn := d }
  else if 0x18 ≤ a.toNat ∧ a.toNat ≤ 0x1D then s.withCE (s.ce.storeSample (a.toNat - 0x18) d)
  else s.ignoreWrite

/-- `WR a, d` (R101). -/
def execWr (a d : Byte) (s : State) : Host.Outcome State Fault Refusal := .next (s.writeByte a d)

end Sys2Proof.Machine
end

