-- ==== Sys2Proof/Machine/Pressure.lean ====
section
/-! DEFINITION. Pipeline steps 5 to 18 and completion (spec/43_compensate_pressure.md R140 to R154). Primitives stand in the
order the rules write them (spec/00_scope.md R9). -/

namespace Sys2Proof.Machine

/-- `B6` of step 5 (R140). -/
def u5Value (s : State) : Except Cause W32 := ssub32 s.b5 4000#32

/-- `U5` (R140). -/
def execU5 (s : State) : Host.Outcome State Fault Refusal :=
  .next (s.settle 5#5 (u5Value s) fun c v => { c with b6 := some v, step := 6#5 })

/-- `X1` of step 6 (R141). -/
def u6Value (s : State) : Except Cause W32 := do
  let m1 ← smul32 s.b6 s.b6
  let m2 ← smul32 s.cb2 (asr32 m1 12)
  return asr32 m2 11

/-- `U6` (R141). -/
def execU6 (s : State) : Host.Outcome State Fault Refusal :=
  .next (s.settle 6#5 (u6Value s) fun c v => { c with x1 := some v, step := 7#5 })

/-- `X2` of step 7 (R142). -/
def u7Value (s : State) : Except Cause W32 := do
  let m ← smul32 s.a2 s.b6
  return asr32 m 11

/-- `U7` (R142). -/
def execU7 (s : State) : Host.Outcome State Fault Refusal :=
  .next (s.settle 7#5 (u7Value s) fun c v => { c with x2 := some v, step := 8#5 })

/-- `X3` of step 8 (R143). -/
def u8Value (s : State) : Except Cause W32 := sadd32 s.x1 s.x2

/-- `U8` (R143). -/
def execU8 (s : State) : Host.Outcome State Fault Refusal :=
  .next (s.settle 8#5 (u8Value s) fun c v => { c with x3 := some v, step := 9#5 })

/-- `B3` of step 9 (R144). -/
def u9Value (s : State) : Except Cause W32 := do
  let a ← smul32 s.a1 4#32
  let b ← sadd32 a s.x3
  let c ← sshl32 b (shiftSH s.oss)
  let t ← sadd32 c 2#32
  return asr32 t 2

/-- `U9` (R144). -/
def execU9 (s : State) : Host.Outcome State Fault Refusal :=
  .next (s.settle 9#5 (u9Value s) fun c v => { c with b3 := some v, step := 10#5 })

/-- `X1` of step 10 (R145). -/
def u10Value (s : State) : Except Cause W32 := do
  let m ← smul32 s.a3 s.b6
  return asr32 m 13

/-- `U10` (R145). -/
def execU10 (s : State) : Host.Outcome State Fault Refusal :=
  .next (s.settle 10#5 (u10Value s) fun c v => { c with x1 := some v, step := 11#5 })

/-- `X2` of step 11 (R146). -/
def u11Value (s : State) : Except Cause W32 := do
  let m1 ← smul32 s.b6 s.b6
  let m2 ← smul32 s.cb1 (asr32 m1 12)
  return asr32 m2 16

/-- `U11` (R146). -/
def execU11 (s : State) : Host.Outcome State Fault Refusal :=
  .next (s.settle 11#5 (u11Value s) fun c v => { c with x2 := some v, step := 12#5 })

/-- `X3` of step 12 (R147). -/
def u12Value (s : State) : Except Cause W32 := do
  let t ← sadd32 s.x1 s.x2
  let t2 ← sadd32 t 2#32
  return asr32 t2 2

/-- `U12` (R147). -/
def execU12 (s : State) : Host.Outcome State Fault Refusal :=
  .next (s.settle 12#5 (u12Value s) fun c v => { c with x3 := some v, step := 13#5 })

/-- `B4` of step 13 (R148): signed sum, unsigned product and logical shift. -/
def u13Value (s : State) : Except Cause W32 := do
  let a ← sadd32 s.x3 32768#32
  return lsr32 (umul32 s.a4 (toU32 a)) 15

/-- `U13` (R148). -/
def execU13 (s : State) : Host.Outcome State Fault Refusal :=
  .next (s.settle 13#5 (u13Value s) fun c v => { c with b4 := some v, step := 14#5 })

/-- `B7` of step 14 (R149): unsigned throughout. -/
def u14Value (s : State) : Except Cause W32 := .ok (umul32 (usub32 s.up (toU32 s.b3)) (scaleK s.oss))

/-- `U14` (R149). -/
def execU14 (s : State) : Host.Outcome State Fault Refusal :=
  .next (s.settle 14#5 (u14Value s) fun c v => { c with b7 := some v, step := 15#5 })

/-- The quotient of step 15, on its low or its high path (R150). -/
def u15Quotient (b7 b4 : W32) : Except Cause W32 :=
  if b7.toNat < 2147483648 then udiv32 (umul32 b7 2#32) b4
  else do
    let q ← udiv32 b7 b4
    return umul32 q 2#32

/-- `p` of step 15 (R150). -/
def u15Value (s : State) : Except Cause W32 := do
  let q ← u15Quotient s.b7 s.b4
  toS32 q

/-- `U15` (R150). -/
def execU15 (s : State) : Host.Outcome State Fault Refusal :=
  .next (s.settle 15#5 (u15Value s) fun c v => { c with p := some v, step := 16#5 })

/-- The first assignment of step 16 (R151). -/
def u16Square (s : State) : Except Cause W32 := smul32 (asr32 s.p 8) (asr32 s.p 8)

/-- The second assignment of step 16 (R151). -/
def u16Value (s : State) : Except Cause W32 := do
  let m ← smul32 s.x1 3038#32
  return asr32 m 16

/-- Step 16: two assignments to `X1`, in order; a fault of the second leaves the first one made (R151). -/
def State.stepU16 (s : State) : State :=
  match u16Square s with
  | .error c => raiseFault c 16#5 s
  | .ok v =>
    let s1 := s.withCE { s.ce with x1 := some v }
    s1.settle 16#5 (u16Value s1) fun c v => { c with x1 := some v, step := 17#5 }

/-- `U16` (R151). -/
def execU16 (s : State) : Host.Outcome State Fault Refusal := .next s.stepU16

/-- `X2` of step 17 (R152). -/
def u17Value (s : State) : Except Cause W32 := do
  let m ← smul32 (BitVec.ofInt 32 (-7357)) s.p
  return asr32 m 16

/-- `U17` (R152). -/
def execU17 (s : State) : Host.Outcome State Fault Refusal :=
  .next (s.settle 17#5 (u17Value s) fun c v => { c with x2 := some v, step := 18#5 })

/-- `PRESS` of step 18 (R153). -/
def u18Value (s : State) : Except Cause W32 := do
  let t ← sadd32 s.x1 s.x2
  let t2 ← sadd32 t 3791#32
  sadd32 s.p (asr32 t2 4)

/-- Completion, in the transition that writes `PRESS` (R154). -/
def CE.complete (c : CE) : CE := { c with done := true, mode := .idle, step := 0#5 }

/-- `U18` and completion (R153, R154). -/
def execU18 (s : State) : Host.Outcome State Fault Refusal :=
  .next (s.settle 18#5 (u18Value s) fun c v => CE.complete { c with press := some v })

end Sys2Proof.Machine
end

