-- ==== Sys2Proof/Machine/Temperature.lean ====
section
/-! DEFINITION. Pipeline steps 1 to 4 (spec/42_compensate_temperature.md R130 to R133). Primitives stand in the order the
rules write them (spec/00_scope.md R9). -/

namespace Sys2Proof.Machine

/-- `X1` of step 1 (R130). -/
def u1Value (s : State) : Except Cause W32 := do
  let d ← ssub32 s.ut s.a6
  let m ← smul32 d s.a5
  return asr32 m 15

/-- `U1` (R130). -/
def execU1 (s : State) : Host.Outcome State Fault Refusal :=
  .next (s.settle 1#5 (u1Value s) fun c v => { c with x1 := some v, step := 2#5 })

/-- `X2` of step 2 (R131). -/
def u2Value (s : State) : Except Cause W32 := do
  let n ← sshl32 s.mc 11
  let den ← sadd32 s.x1 s.md
  sdiv32 n den

/-- `U2` (R131). -/
def execU2 (s : State) : Host.Outcome State Fault Refusal :=
  .next (s.settle 2#5 (u2Value s) fun c v => { c with x2 := some v, step := 3#5 })

/-- `B5` of step 3 (R132). -/
def u3Value (s : State) : Except Cause W32 := sadd32 s.x1 s.x2

/-- `U3` (R132). -/
def execU3 (s : State) : Host.Outcome State Fault Refusal :=
  .next (s.settle 3#5 (u3Value s) fun c v => { c with b5 := some v, step := 4#5 })

/-- `TEMP` of step 4 (R133). -/
def u4Value (s : State) : Except Cause W32 := do
  let t ← sadd32 s.b5 8#32
  return asr32 t 4

/-- `U4` (R133). -/
def execU4 (s : State) : Host.Outcome State Fault Refusal :=
  .next (s.settle 4#5 (u4Value s) fun c v => { c with temp := some v, step := 5#5 })

end Sys2Proof.Machine
end

