-- ==== Sys2Proof/Machine/Dispatch.lean ====
section
/-! DEFINITION. The meaning of every instruction, one arm per constructor. -/

namespace Sys2Proof.Machine

def exec (i : Instr) (s : State) : Host.Outcome State Fault Refusal :=
  match i with
  -- Host transactions and commands (40_host_access_and_commands.md)
  | .rd a => Sys2Proof.Machine.execRd a s
  | .wr a d => Sys2Proof.Machine.execWr a d s
  | .nop => Sys2Proof.Machine.execNop s
  | .load => Sys2Proof.Machine.execLoad s
  | .compensate => Sys2Proof.Machine.execCompensate s
  | .cmdReserved c => Sys2Proof.Machine.execCmdReserved c s
  | .ldstep k => Sys2Proof.Machine.execLdstep k s
  -- Pipeline micro-steps (42_compensate_temperature.md, 43_compensate_pressure.md)
  | .u1 => Sys2Proof.Machine.execU1 s
  | .u2 => Sys2Proof.Machine.execU2 s
  | .u3 => Sys2Proof.Machine.execU3 s
  | .u4 => Sys2Proof.Machine.execU4 s
  | .u5 => Sys2Proof.Machine.execU5 s
  | .u6 => Sys2Proof.Machine.execU6 s
  | .u7 => Sys2Proof.Machine.execU7 s
  | .u8 => Sys2Proof.Machine.execU8 s
  | .u9 => Sys2Proof.Machine.execU9 s
  | .u10 => Sys2Proof.Machine.execU10 s
  | .u11 => Sys2Proof.Machine.execU11 s
  | .u12 => Sys2Proof.Machine.execU12 s
  | .u13 => Sys2Proof.Machine.execU13 s
  | .u14 => Sys2Proof.Machine.execU14 s
  | .u15 => Sys2Proof.Machine.execU15 s
  | .u16 => Sys2Proof.Machine.execU16 s
  | .u17 => Sys2Proof.Machine.execU17 s
  | .u18 => Sys2Proof.Machine.execU18 s

end Sys2Proof.Machine
end

