-- ==== Sys2Proof/Machine/Fetch.lean ====
section
/-! DEFINITION. Who moves next and which word it brings (spec/00_scope.md R11, R12; spec/30_encoding.md R84, R85). -/

namespace Sys2Proof.Machine

/-- The next move: the first listed event; with none left the sequencer has the turn (R12, R211;
notes/assumptions/3.md). -/
def State.turn (s : State) : Event :=
  match s.env.events with
  | e :: _ => e
  | [] => .seq

/-- The micro-step the sequencer is enabled to take: `LDCNT` selects it while loading, if the coefficient source
answers the read at hand, and `STEP` while computing; when idle there is none (R84, R85, R209). -/
def State.microCode (s : State) : Option Code :=
  match s.ce.mode with
  | .idle => none
  | .loading => if s.sourceAnswers then some (.load s.ce.ldcnt) else none
  | .computing => some (.pipe s.ce.step)

/-- The word of the next transition, if it runs an instruction. -/
def State.fetch (s : State) : Option Code :=
  match s.turn with
  | .host t => some (.host t)
  | .seq => s.microCode
  | .reset => none

/-- The move has been taken: its event is used up, and the free values of the transition are fresh. -/
def State.tick (s : State) : State :=
  { s with env := { s.env with events := s.env.events.tail, draws := s.env.draws + 1 } }

/-- The state in which the next step fetches the given word: a host word is the next event; a micro-step's number is
put where the sequencer selects by it, the sequencer has the turn, and the source answers. -/
def State.withCode (s : State) (c : Code) : State :=
  match c with
  | .host t => { s with env := { s.env with events := .host t :: s.env.events } }
  | .load k =>
    { ce := { s.ce with mode := .loading, ldcnt := k },
      env := { s.env with
        events := .seq :: s.env.events, srcAnswers := s.env.srcAnswers.dropWhile Option.isNone, srcSilent := false } }
  | .pipe n =>
    { ce := { s.ce with mode := .computing, step := n }, env := { s.env with events := .seq :: s.env.events } }

end Sys2Proof.Machine
end

