-- ==== Sys2Proof/Machine/Step.lean ====
section
/-! DEFINITION. One transition of the machine (spec/00_scope.md R12). -/

namespace Sys2Proof.Machine

/-- One atomic transition: reset if it is asserted; else the fetched word's instruction; else, with the sequencer's
turn and no micro-step enabled, nothing happens to the block. -/
def step (s : State) : Host.Outcome State Fault Refusal :=
  match s.turn with
  | .reset => .next s.tick.applyReset
  | _ =>
    match s.fetch with
    | none => .next s.tick
    | some c =>
      match decode c with
      | .ok i => exec i s.tick
      | .error _ => .fault .sequencerLost

/-- The state whose next step fetches and runs the instruction of a number of the opcode table
(notes/assumptions/12.md); a number that is no word leaves the state as it is. -/
def State.withFetchWord (s : State) (nbits w : Nat) : State :=
  match tableCode nbits w with
  | some c => s.withCode c
  | none => s

end Sys2Proof.Machine
end

