-- ==== Sys2Proof/Machine/Reading.lean ====
section
/-! DEFINITION. What a host makes of the results, outside the block: the output triple of spec/44_altitude.md R174, its
altitude over the reals (R170) or as the open floating-point format gives it (R172). -/

namespace Sys2Proof.Machine

/-! ## The three members -/

/-- The temperature in °C: `TEMP / 10`, exact (42_compensate_temperature.md R135). -/
def celsius (temp : W32) : Rat := (temp.toInt : Rat) / 10

/-- The pressure in Pa: `int(PRESS)` (44_altitude.md R170, R174). -/
def pascal (press : W32) : Int := press.toInt

/-- `h` is the altitude in metres that belongs to a pressure in Pa (44_altitude.md R170), over the reals, the reference of
R172. A negative pressure has no real power, and any value is allowed (R173, IM8). -/
def IsAltitude (press : Int) (h : ℝ) : Prop :=
  0 ≤ press → h = 44330 * (1 - ((press : ℝ) / 101325) ^ ((1 : ℝ) / 5.255))

/-! ## What a claim may name of an implementation's step 19 (44_altitude.md R172); none of it is assumed -/

/-- Its altitudes decrease strictly over the positive integer pressures (R171, R172). -/
def AltFp.DecreasesOnIntegers (fp : AltFp) : Prop :=
  ∀ (p q : Int) (x y : ℝ), 0 < p → p < q → fp.toReal (fp.altitude p) = some x → fp.toReal (fp.altitude q) = some y → y < x

/-- Its altitudes differ from the real ones by at most `e`. -/
def AltFp.Within (fp : AltFp) (e : ℝ) : Prop :=
  ∀ (p : Int) (h x : ℝ), 0 ≤ p → IsAltitude p h → fp.toReal (fp.altitude p) = some x → |x - h| ≤ e

/-! ## The triple (R174) -/

/-- `CompensatedReading`, with its altitude a value of `α`: a real number, or a value of the host's format. -/
structure CompensatedReading (α : Type) where
  /-- In °C (42_compensate_temperature.md R135). -/
  temperature : Rat
  /-- In Pa. -/
  pressure : Int
  /-- In metres. -/
  altitude : α
  deriving DecidableEq, Repr

/-- `r` is the output triple of `TEMP` and `PRESS`, its altitude over the reals (R174). -/
def IsReading (temp press : W32) (r : CompensatedReading ℝ) : Prop :=
  r.temperature = celsius temp ∧ r.pressure = pascal press ∧ IsAltitude (pascal press) r.altitude

/-- The output triple of `TEMP` and `PRESS`, its altitude as an implementation of step 19 gives it (R172, R174). -/
def readingOf (fp : AltFp) (temp press : W32) : CompensatedReading fp.Value where
  temperature := celsius temp
  pressure := pascal press
  altitude := fp.altitude (pascal press)

/-! ## How a host comes by it -/

/-- The 16-bit value of `MemRead(a, 2)` made of two answered bytes, the first most significant (00_scope.md R10, 20_memory.md R64). -/
def joinBytes16 (d0 d1 : Byte) : Half := d0 ++ d1

/-- The 32-bit value of `MemRead(a, 4)` (00_scope.md R10, 20_memory.md R64). -/
def joinBytes32 (d0 d1 d2 d3 : Byte) : W32 := d0 ++ d1 ++ d2 ++ d3

/-- A host may take `TEMP` and `PRESS` as results (70_reset_and_hazards.md R204): `BUSY = 0` and `DONE = 1` in a byte of `STATUS`. -/
def resultsReady (status : Byte) : Bool := !status.getLsbD 2 && status.getLsbD 3

/-- The output triple a host reads from the block, if its results are valid (R170, R174, 70_reset_and_hazards.md R204). -/
def State.reading (s : State) (fp : AltFp) : Option (CompensatedReading fp.Value) :=
  if resultsReady s.ce.status then some (readingOf fp s.temp s.press) else none

end Sys2Proof.Machine
end

