-- ==== Sys2Proof/Machine/Reference.lean ====
section
/-! DEFINITION. The compensation over the mathematical integers (spec/42_compensate_temperature.md R134,
spec/43_compensate_pressure.md R155), and the inputs on which the block computes exactly it (spec/00_scope.md R14). -/

namespace Sys2Proof.Machine

/-- What a run depends on (00_scope.md R13): the coefficients its steps read, the sample and the level. -/
structure Inputs where
  a1 : Int
  a2 : Int
  a3 : Int
  a4 : Int
  a5 : Int
  a6 : Int
  b1 : Int
  b2 : Int
  mc : Int
  md : Int
  ut : Int
  up : Int
  oss : Nat
  deriving DecidableEq, Repr

/-- The inputs a state holds; `MB` is not among them (10_state.md R22). -/
def State.inputs (s : State) : Inputs where
  a1 := s.a1.toInt
  a2 := s.a2.toInt
  a3 := s.a3.toInt
  a4 := s.a4.toInt
  a5 := s.a5.toInt
  a6 := s.a6.toInt
  b1 := s.cb1.toInt
  b2 := s.cb2.toInt
  mc := s.mc.toInt
  md := s.md.toInt
  ut := s.ut.toInt
  up := s.up.toNat
  oss := s.oss

/-- The final correction, steps 16 to 18: `PRESS` as a function of `p` alone (R153, R155). -/
def correctedPressure (p : Int) : Int :=
  p + (((p / 256) * (p / 256) * 3038) / 65536 + (-7357 * p) / 65536 + 3791) / 16

namespace Inputs

/-- `X1` of step 1 (R134). -/
def x1 (i : Inputs) : Int := ((i.ut - i.a6) * i.a5) / 32768

/-- `X2` of step 2 (R134). -/
def x2 (i : Inputs) : Int := (i.mc * 2048).tdiv (i.x1 + i.md)

/-- `B5` (R134). -/
def b5 (i : Inputs) : Int := i.x1 + i.x2

/-- The temperature in 0.1 °C (R134, R135). -/
def temp (i : Inputs) : Int := (i.b5 + 8) / 16

/-- `B6` (R155). -/
def b6 (i : Inputs) : Int := i.b5 - 4000

/-- `Q` (R155). -/
def q (i : Inputs) : Int := (i.b6 * i.b6) / 4096

/-- `X3a`, the `X3` of step 8 (R155). -/
def x3a (i : Inputs) : Int := (i.b2 * i.q) / 2048 + (i.a2 * i.b6) / 2048

/-- `B3` (R155). -/
def b3 (i : Inputs) : Int := ((i.a1 * 4 + i.x3a) * 2 ^ i.oss + 2) / 4

/-- `X3b`, the `X3` of step 12 (R155). -/
def x3b (i : Inputs) : Int := ((i.a3 * i.b6) / 8192 + (i.b1 * i.q) / 65536 + 2) / 4

/-- `B4` (R155). -/
def b4 (i : Inputs) : Int := (i.a4 * (i.x3b + 32768)) / 32768

/-- `B7` (R155). -/
def b7 (i : Inputs) : Int := (i.up - i.b3) * (50000 / 2 ^ i.oss)

/-- `p` (R155). -/
def p (i : Inputs) : Int := if i.b7 < 2147483648 then (2 * i.b7) / i.b4 else 2 * (i.b7 / i.b4)

/-- The pressure in Pa (R155). -/
def press (i : Inputs) : Int := correctedPressure i.p

/-- Well-formed inputs (00_scope.md R14), by the table of what can leave the set (43_compensate_pressure.md R158): no
primitive faults, and no unsigned primitive of steps 13 to 15 wraps. -/
structure WellFormed (i : Inputs) : Prop where
  step1 : fitsS32 ((i.ut - i.a6) * i.a5) = true
  step2 : i.x1 + i.md ≠ 0
  step6a : fitsS32 (i.b6 * i.b6) = true
  step6b : fitsS32 (i.b2 * i.q) = true
  step11 : fitsS32 (i.b1 * i.q) = true
  step13a : 0 ≤ i.x3b + 32768
  step13b : i.a4 * (i.x3b + 32768) < 4294967296
  step14a : i.b3 ≤ i.up
  step14b : (i.up - i.b3) * (50000 / 2 ^ i.oss) < 4294967296
  step15a : i.b4 ≠ 0
  step16 : i.p ≤ 215295

end Inputs

end Sys2Proof.Machine
end

