-- ==== Sys2Proof/Machine/Script.lean ====
section
/-! DEFINITION. The script syntax and its pseudo-instructions (spec/30_encoding.md R90, R91), as the Format H words a host
issues, the source's operations (spec/40_host_access_and_commands.md R107), and how a host performs a script while the
sequencer moves on its own (R90, spec/00_scope.md R12). -/

namespace Sys2Proof.Machine

namespace Script

/-- `RD addr` (R90). -/
def rd (a : Byte) : List (BitVec 17) := [rdWord a]

/-- `WR addr, byte` (R90). -/
def wr (a d : Byte) : List (BitVec 17) := [wrWord a d]

/-- `CMD c` (R91). -/
def cmd (c : Byte) : List (BitVec 17) := wr 0x17#8 c

/-- `NOP`, `LOAD`, `COMPENSATE` (R91). -/
def nop : List (BitVec 17) := cmd 0x00#8
def load : List (BitVec 17) := cmd 0x01#8
def compensate : List (BitVec 17) := cmd 0x02#8

/-- `SETOSS n` (R91): `n mod 256`. -/
def setOss (n : Int) : List (BitVec 17) := wr 0x16#8 (BitVec.ofInt 8 n)

/-- The address `k` bytes after `a` in a multi-byte access (00_scope.md R10, R91). DESIGN CHOICE: past 0xFF it goes on at
0x00, since the spec does not say what lies there (notes/assumptions/20.md). -/
def after (a : Byte) (k : Nat) : Byte := a + BitVec.ofNat 8 k

/-- `WR16 a, v` (R91). -/
def wr16 (a : Byte) (v : Half) : List (BitVec 17) := wr a (v.extractLsb' 8 8) ++ wr (after a 1) (v.extractLsb' 0 8)

/-- `WR32 a, v` (R91). -/
def wr32 (a : Byte) (v : W32) : List (BitVec 17) :=
  wr a (v.extractLsb' 24 8) ++ wr (after a 1) (v.extractLsb' 16 8) ++ wr (after a 2) (v.extractLsb' 8 8)
    ++ wr (after a 3) (v.extractLsb' 0 8)

/-- `RD16 a`, `RD32 a` (R91). -/
def rd16 (a : Byte) : List (BitVec 17) := rd a ++ rd (after a 1)
def rd32 (a : Byte) : List (BitVec 17) := rd a ++ rd (after a 1) ++ rd (after a 2) ++ rd (after a 3)

/-- `SAMPLE ut, up` (R91). -/
def sample (ut : Half) (up : W32) : List (BitVec 17) := wr16 0x18#8 ut ++ wr32 0x1A#8 up

/-- `n` polls of `STATUS`, whatever they answer: what a `WAIT` that takes `n` polls puts on the port (R91). -/
def poll (n : Nat) : List (BitVec 17) := (List.replicate n (rd 0x1E#8)).flatten

/-- The poll that ends a `WAIT` returned this byte: `BUSY` is 0 (R91). -/
def waitOver (status : Byte) : Bool := !status.getLsbD 2

/-- `CONVTIME` (R91). -/
def convTime : List (BitVec 17) := rd16 0x28#8

/-- The source's `conversionTime` (R107). -/
def conversionTime (n : Int) : List (BitVec 17) := setOss n ++ convTime

/-- The source's `compensate`, up to its `WAIT` (R107). -/
def compensateOp (n : Int) (ut : Half) (up : W32) : List (BitVec 17) := setOss n ++ sample ut up ++ compensate

/-! ## Scripts with `WAIT` -/

/-- One line of a script: a transaction, or a `WAIT`, whose transactions depend on what they answer (R90, R91). -/
inductive Line where
  | word (t : BitVec 17)
  | wait
  deriving DecidableEq, Repr

/-- Transactions as lines. -/
def lines (ws : List (BitVec 17)) : List Line := ws.map Line.word

/-- The word a host issues next for a line: a `WAIT` polls `STATUS` with `RD 0x1E` (R91). -/
def Line.next : Line → BitVec 17
  | .word t => t
  | .wait => rdWord 0x1E#8

/-- What is left of a line once its word has been answered: a transaction is done, and a `WAIT` is repeated until the
byte returned has `BUSY` 0 (R91). The answers are newest first. -/
def Line.left (l : Line) (answers : List Byte) : List Line :=
  match l with
  | .word _ => []
  | .wait =>
    match answers with
    | [] => [.wait]
    | d :: _ => if waitOver d then [] else [.wait]

/-- The source's `load` (R107). -/
def loadScript : List Line := lines load ++ [.wait]

/-- The source's `compensate` (R107). -/
def compensateScript (n : Int) (ut : Half) (up : W32) : List Line := lines (compensateOp n ut up) ++ [.wait]

end Script

/-- A script to be issued before what is already to come: each word is one host event (R12, R90). DESIGN CHOICE: of the
schedules that R12 and R90 leave open this is the one in which no micro-step falls between the words, so a load or a run
that a word starts does not advance before the last word (notes/assumptions/3.md); `perform` has every schedule. -/
def State.withScript (s : State) (ws : List (BitVec 17)) : State :=
  { s with env := { s.env with events := ws.map Event.host ++ s.env.events } }

/-! ## Performing a script -/

/-- Who moves next while a host performs a script (00_scope.md R12). -/
inductive Agent where
  | host
  | sequencer
  deriving DecidableEq, Repr

/-- The state with one more move to come, before all others. -/
def State.facing (s : State) (e : Event) : State := { s with env := { s.env with events := e :: s.env.events } }

/-- The lines left and the state after the agents have moved in the order given: on its turn the host issues the next
word of its script, and between any two transactions the sequencer takes the turns the order gives it (R12, R90).
`none` where a step stops. -/
def perform : List Agent → List Script.Line → State → Option (List Script.Line × State)
  | [], ls, s => some (ls, s)
  | .sequencer :: as, ls, s =>
    match step (s.facing .seq) with
    | .next t => perform as ls t
    | .fault _ => none
    | .refused _ => none
  | .host :: as, [], s => perform as [] s
  | .host :: as, l :: ls, s =>
    match step (s.facing (.host l.next)) with
    | .next t => perform as (l.left t.env.hostAnswers ++ ls) t
    | .fault _ => none
    | .refused _ => none

/-- `t` is a state in which a host has performed the whole script from `s`, under some order of the moves (R90). -/
def Performs (ls : List Script.Line) (s t : State) : Prop := ∃ as : List Agent, perform as ls s = some ([], t)

end Sys2Proof.Machine
end

