-- ==== Sys2Proof/Safety.lean ====
section
/-! DEFINITION. The legal states (spec/10_state.md R21, R26, R30 to R33, R36), the ranges the rules give for the working
registers of a run (spec/42_compensate_temperature.md, spec/43_compensate_pressure.md), and successful ends (spec/60_exceptions.md R185). -/

namespace Sys2Proof.Machine

/-- The exclusions among the `STATUS` bits (R32): `BUSY`, `FAULT` and `DONE` are pairwise exclusive, and `DONE`
needs `CVALID`. -/
abbrev CE.FlagsLegal (c : CE) : Prop :=
  (c.busy && c.fault) = false ∧ (c.done && c.busy) = false ∧ (c.done && c.fault) = false ∧
    (c.done = true → c.cvalid = true)

/-- `FINFO` is 0 exactly when no fault was taken; `CAUSE` 4 to 7 never occurs; `FSTEP` is a read number 0 to 21 for
`TRANSPORT`, a step number 1 to 18 for the others (R33); a transport fault leaves no coefficient (R183). -/
abbrev CE.FinfoLegal (c : CE) : Prop :=
  (c.fault = false ↔ c.finfo = 0x00#8) ∧
    (c.fault = true → 1 ≤ c.cause.toNat ∧ c.cause.toNat ≤ 3 ∧
      (c.cause.toNat = 1 → c.fstep.toNat ≤ 21 ∧ c.cvalid = false) ∧
      (c.cause.toNat ≠ 1 → 1 ≤ c.fstep.toNat ∧ c.fstep.toNat ≤ 18 ∧ c.cvalid = true))

/-- `CVALID` says exactly that the file is populated (R21); a load runs without a file, a compensation with one
(R103, R105). -/
abbrev CE.CoefLegal (c : CE) : Prop :=
  c.cvalid = c.coef.isSome ∧ (c.mode = .loading → c.cvalid = false) ∧ (c.mode = .computing → c.cvalid = true)

/-- `STEP` is 1 to 18 while computing and 0 otherwise; `LDCNT` is 0 to 21 while loading and 0 otherwise (R30, R31). -/
abbrev CE.PositionLegal (c : CE) : Prop :=
  (c.mode = .computing → 1 ≤ c.step.toNat ∧ c.step.toNat ≤ 18) ∧ (c.mode ≠ .computing → c.step = 0#5) ∧
    c.ldcnt.toNat ≤ 21 ∧ (c.mode ≠ .loading → c.ldcnt = 0#5)

/-- A sample flag says its byte was written; a compensation runs on six written bytes (R26, R105). -/
abbrev CE.SampleLegal (c : CE) : Prop :=
  (∀ k : Fin 6, c.sw[k] = true → c.sample[k].isSome = true) ∧
    (c.mode = .computing → ∀ k : Fin 6, c.sample[k].isSome = true)

/-- The bytes of the reads a load has completed are in the buffer (R31). -/
abbrev CE.LoadLegal (c : CE) : Prop :=
  c.mode = .loading → ∀ k : Fin 22, k.val < c.ldcnt.toNat → c.ldbuf[k].isSome = true

/-- While computing with step `n` next, every register that a step before `n` writes holds a value (R27, R36). -/
abbrev CE.WorkLegal (c : CE) : Prop :=
  c.mode = .computing →
    (2 ≤ c.step.toNat → c.x1.isSome = true) ∧ (3 ≤ c.step.toNat → c.x2.isSome = true) ∧
    (4 ≤ c.step.toNat → c.b5.isSome = true) ∧ (5 ≤ c.step.toNat → c.temp.isSome = true) ∧
    (6 ≤ c.step.toNat → c.b6.isSome = true) ∧ (9 ≤ c.step.toNat → c.x3.isSome = true) ∧
    (10 ≤ c.step.toNat → c.b3.isSome = true) ∧ (14 ≤ c.step.toNat → c.b4.isSome = true) ∧
    (15 ≤ c.step.toNat → c.b7.isSome = true) ∧ (16 ≤ c.step.toNat → c.p.isSome = true)

/-- `DONE = 1` says that `TEMP` and `PRESS` hold results (R29, R32). -/
abbrev CE.ResultLegal (c : CE) : Prop :=
  c.done = true → c.temp.isSome = true ∧ c.press.isSome = true

/-- The legal states of the block. -/
structure CE.Inv (c : CE) : Prop where
  flags : c.FlagsLegal
  finfo : c.FinfoLegal
  coef : c.CoefLegal
  position : c.PositionLegal
  sample : c.SampleLegal
  load : c.LoadLegal
  work : c.WorkLegal
  result : c.ResultLegal

/-- The register's value, if it holds one, is in the signed range. -/
abbrev InRange (r : Option W32) (lo hi : Int) : Prop :=
  (r.all fun v => decide (lo ≤ v.toInt ∧ v.toInt ≤ hi)) = true

/-- The register's value, if it holds one, is at most `hi` as an unsigned number. -/
abbrev AtMost (r : Option W32) (hi : Nat) : Prop :=
  (r.all fun v => decide (v.toNat ≤ hi)) = true

/-- The bounds of the temperature part while its values are in use (R130, R131, R132). -/
abbrev CE.TemperatureBounds (c : CE) : Prop :=
  (2 ≤ c.step.toNat ∧ c.step.toNat ≤ 6 → InRange c.x1 (-65536) 65535) ∧
    (3 ≤ c.step.toNat ∧ c.step.toNat ≤ 7 → InRange c.x2 (-67108864) 67108864) ∧
    (4 ≤ c.step.toNat → InRange c.b5 (-67174400) 67174399)

/-- The bounds of steps 5 to 12 while their values are in use (R140 to R147). -/
abbrev CE.MiddleBounds (c : CE) : Prop :=
  (6 ≤ c.step.toNat → InRange c.b6 (-67178400) 67170399) ∧
    (7 ≤ c.step.toNat → InRange c.b6 (-46340) 46340) ∧
    (7 ≤ c.step.toNat ∧ c.step.toNat ≤ 10 → InRange c.x1 (-1048576) 1048575) ∧
    (8 ≤ c.step.toNat ∧ c.step.toNat ≤ 11 → InRange c.x2 (-741440) 741440) ∧
    (9 ≤ c.step.toNat ∧ c.step.toNat ≤ 12 → InRange c.x3 (-1790016) 1790015) ∧
    (10 ≤ c.step.toNat → InRange c.b3 (-3850000) 3850000) ∧
    (11 ≤ c.step.toNat ∧ c.step.toNat ≤ 16 → InRange c.x1 (-185360) 185360) ∧
    (12 ≤ c.step.toNat ∧ c.step.toNat ≤ 17 → InRange c.x2 (-32768) 32767) ∧
    (13 ≤ c.step.toNat → InRange c.x3 (-54532) 54532)

/-- The bounds of steps 13 to 17 while their values are in use (R148 to R152); the `X1` of step 16 and the `X2` of step
17 are functions of `p`, which is why `PRESS` is one (R153). -/
abbrev CE.PressureBounds (c : CE) : Prop :=
  (14 ≤ c.step.toNat → AtMost c.b4 131071) ∧
    (16 ≤ c.step.toNat → InRange c.p 0 2147483647) ∧
    (17 ≤ c.step.toNat → InRange c.p 0 215295) ∧
    (17 ≤ c.step.toNat → InRange c.x1 0 32708 ∧
      c.x1.map (·.toInt) = c.p.map fun v => (v.toInt / 256) * (v.toInt / 256) * 3038 / 65536) ∧
    (18 ≤ c.step.toNat → InRange c.x2 (-24169) 0 ∧
      c.x2.map (·.toInt) = c.p.map fun v => (-7357 * v.toInt) / 65536)

/-- The bounds the rules give for the working registers of a run in progress, and for a completed run's `PRESS` (R153). -/
abbrev CE.Bounds (c : CE) : Prop :=
  (c.mode = .computing → c.TemperatureBounds ∧ c.MiddleBounds ∧ c.PressureBounds) ∧
    (c.done = true → InRange c.press 236 216065)

/-- The values of `FINFO` that a fault leaves (60_exceptions.md R180, R183), and 0x00 for none. -/
def finfoProduced (f : Byte) : Bool :=
  f = 0x00#8 || (0x20 ≤ f.toNat && f.toNat ≤ 0x35) || f = 0x42#8 || f = 0x4F#8 || f = 0x61#8 || f = 0x66#8 ||
    f = 0x6B#8 || f = 0x6F#8 || f = 0x70#8

/-- A load has succeeded only if `CVALID = 1` (60_exceptions.md R185). -/
abbrev CE.LoadSucceeded (c : CE) : Prop := c.cvalid = true

/-- A compensation has succeeded only if `DONE = 1` (60_exceptions.md R185). -/
abbrev CE.CompensateSucceeded (c : CE) : Prop := c.done = true

end Sys2Proof.Machine
end

