-- ==== Sys2Proof/Certificates/Slice0/Obligations.lean ====
section
/-! DEFINITION. The statements for the provers. Each is about every state, legal or not, unless a premise says otherwise;
an equation with `.next (s.withCE { s.ce with … })` says the result, that the instruction completes, and that nothing
else of the state changes. -/

open Sys2Proof Sys2Proof.Machine

/-! ## Encoding -/

/-- 30_encoding.md R81 to R85: decoding the word of a well-formed instruction gives it back, every operand at every
value. -/
def Obligations.DecodingUndoesEncoding : Prop :=
  ∀ i : Instr, WellFormed i → decode (encode i) = .ok i

/-- 30_encoding.md R87: the three-way split of the 17-bit words, and every word is exactly one well-formed
instruction. -/
def Obligations.EveryHostWordIsOneInstruction : Prop :=
  ∀ t : BitVec 17,
    (t.getLsbD 16 = false → decodeHost t = .rd (t.extractLsb' 8 8)) ∧
    (t.getLsbD 16 = true → t.extractLsb' 8 8 ≠ 0x17#8 →
      decodeHost t = .wr (t.extractLsb' 8 8) (t.extractLsb' 0 8)) ∧
    (t = 0x11700#17 → decodeHost t = .nop) ∧
    (t = 0x11701#17 → decodeHost t = .load) ∧
    (t = 0x11702#17 → decodeHost t = .compensate) ∧
    (0x11703 ≤ t.toNat → t.toNat ≤ 0x117FF → decodeHost t = .cmdReserved (t.extractLsb' 0 8)) ∧
    decode (.host t) = .ok (decodeHost t) ∧ WellFormed (decodeHost t)

/-- opcode_table.json and 30_encoding.md R81, R87: a host word carries the fixed bits of the row it decodes to, and
encoding what it decodes to gives the word back, a read's ignored `DATA` bits cleared. -/
def Obligations.EncodingUndoesHostDecoding : Prop :=
  ∀ t : BitVec 17,
    t.toNat &&& (decodeHost t).row.2 = (decodeHost t).row.1 ∧
    encode (decodeHost t) = .host (if t.getLsbD 16 then t else t &&& 0x0FF00#17)

/-- 30_encoding.md R84, R85: `STEP` 1 to 18 selects exactly `U1` to `U18` and nothing else; `LDCNT` 0 to 21 selects its
load micro-step and nothing else. -/
def Obligations.MicroStepsAreSelectedByNumber : Prop :=
  (∀ n : BitVec 5, 1 ≤ n.toNat → n.toNat ≤ 18 → ∃ i, decode (.pipe n) = .ok i ∧ encode i = .pipe n) ∧
    (∀ n : BitVec 5, n.toNat = 0 ∨ 19 ≤ n.toNat → decode (.pipe n) = .error (.noPipelineStep n)) ∧
    (∀ k : BitVec 5, k.toNat ≤ 21 → decode (.load k) = .ok (.ldstep k)) ∧
    (∀ k : BitVec 5, 22 ≤ k.toNat → decode (.load k) = .error (.noLoadStep k))

/-- 30_encoding.md R81, R82 and 95_test_vectors.md V21: some words written out in the spec. -/
def Obligations.SampleWordsDecode : Prop :=
  decodeHost 0x01E00#17 = .rd 0x1E#8 ∧ decodeHost 0x11603#17 = .wr 0x16#8 0x03#8 ∧
    decodeHost 0x11700#17 = .nop ∧ decodeHost 0x11701#17 = .load ∧ decodeHost 0x11702#17 = .compensate ∧
    decodeHost 0x11703#17 = .cmdReserved 0x03#8 ∧ decode (.load 0b10101#5) = .ok (.ldstep 21#5) ∧
    decode (.pipe 0b00001#5) = .ok .u1 ∧ decode (.pipe 0b10010#5) = .ok .u18

/-- 30_encoding.md R91: the words of `SAMPLE ut, up` are the six byte writes, most significant byte first; those of
`SETOSS n` write `n mod 256`; those of `RD32 a` read four consecutive bytes. That the address after 0xFF is 0x00 is the
model's choice (notes/assumptions/20.md). -/
def Obligations.PseudoInstructionsExpand : Prop :=
  (∀ (ut : BitVec 16) (up : BitVec 32), (Script.sample ut up).map decodeHost =
      [.wr 0x18#8 (BitVec.ofNat 8 (ut.toNat / 2 ^ 8)), .wr 0x19#8 (BitVec.ofNat 8 ut.toNat),
       .wr 0x1A#8 (BitVec.ofNat 8 (up.toNat / 2 ^ 24)), .wr 0x1B#8 (BitVec.ofNat 8 (up.toNat / 2 ^ 16)),
       .wr 0x1C#8 (BitVec.ofNat 8 (up.toNat / 2 ^ 8)), .wr 0x1D#8 (BitVec.ofNat 8 up.toNat)]) ∧
    (∀ n : Int, ∃ d : Byte, (d.toNat : Int) = n % 256 ∧ (Script.setOss n).map decodeHost = [.wr 0x16#8 d]) ∧
    (∀ a : Byte, (Script.rd32 a).map decodeHost = [.rd a, .rd (a + 1#8), .rd (a + 2#8), .rd (a + 3#8)])

/-! ## Primitives and operands -/

/-- 00_scope.md R6: each signed primitive answers the exact result when it is in the signed range and `OVF` otherwise;
the right shift is the floor and never fails; the division answers `DIV0` for a zero divisor and truncates. -/
def Obligations.SignedPrimitivesAreExactOrFault : Prop :=
  ∀ a b : W32, ∀ k : Nat, k ≤ 31 →
    let exact : Int → Except Cause W32 → Prop := fun r e =>
      (-2147483648 ≤ r ∧ r ≤ 2147483647 → ∃ v : W32, e = .ok v ∧ v.toInt = r) ∧
      (¬ (-2147483648 ≤ r ∧ r ≤ 2147483647) → e = .error .ovf)
    exact (a.toInt + b.toInt) (sadd32 a b) ∧
    exact (a.toInt - b.toInt) (ssub32 a b) ∧
    exact (a.toInt * b.toInt) (smul32 a b) ∧
    exact (a.toInt * 2 ^ k) (sshl32 a k) ∧
    (asr32 a k).toInt = a.toInt / 2 ^ k ∧
    (b.toInt = 0 → sdiv32 a b = .error .div0) ∧
    (b.toInt ≠ 0 → exact (a.toInt.sign * b.toInt.sign * (a.toInt.natAbs / b.toInt.natAbs : Nat)) (sdiv32 a b))

/-- 00_scope.md R7: the unsigned primitives reduce modulo 2^32 and never overflow; `udiv32` alone can fault. -/
def Obligations.UnsignedPrimitivesWrap : Prop :=
  ∀ a b : W32, ∀ k : Nat, k ≤ 31 →
    ((uadd32 a b).toNat : Int) = ((a.toNat : Int) + b.toNat) % 4294967296 ∧
    ((usub32 a b).toNat : Int) = ((a.toNat : Int) - b.toNat) % 4294967296 ∧
    ((umul32 a b).toNat : Int) = ((a.toNat : Int) * b.toNat) % 4294967296 ∧
    (lsr32 a k).toNat = a.toNat / 2 ^ k ∧
    (b.toNat = 0 → udiv32 a b = .error .div0) ∧
    (b.toNat ≠ 0 → ∃ v : W32, udiv32 a b = .ok v ∧ v.toNat = a.toNat / b.toNat)

/-- 00_scope.md R8: the conversions. 10_state.md R20: a coefficient as an operand, indices 3, 4, 5 the 16 bits as a number, the
others the 16 bits in two's complement. 30_encoding.md R86: `UT` and `UP` are assembled most significant byte first and used
as unsigned numbers. -/
def Obligations.OperandsAreAssembledAndWidened : Prop :=
  (∀ a : W32, ((toU32 a).toNat : Int) = a.toInt % 4294967296) ∧
    (∀ u : W32, (u.toNat ≥ 2147483648 → toS32 u = .error .ovf) ∧
      (u.toNat < 2147483648 → ∃ v : W32, toS32 u = .ok v ∧ v.toInt = u.toNat)) ∧
    (∀ (s : State) (f : Vector Half 11) (i : Fin 11), s.ce.coef = some f →
      (i.val = 3 ∨ i.val = 4 ∨ i.val = 5 → (s.coefValue i).toInt = f[i].toNat) ∧
      (i.val ≠ 3 → i.val ≠ 4 → i.val ≠ 5 → (s.coefValue i).toInt = f[i].toInt)) ∧
    (∀ (s : State) (b0 b1 b2 b3 b4 b5 : Byte),
      s.ce.sample = #v[some b0, some b1, some b2, some b3, some b4, some b5] →
      s.ut.toInt = b0.toNat * 256 + b1.toNat ∧
      s.up.toNat = b2.toNat * 2 ^ 24 + b3.toNat * 2 ^ 16 + b4.toNat * 2 ^ 8 + b5.toNat)

/-- 41_oversampling_lut.md R120 to R123, R125: the whole table, for every byte of `OSS_IN`. -/
def Obligations.OversamplingTable : Prop :=
  ∀ o : Byte,
    (o = 0x00#8 → ossEff o = 0) ∧ (o = 0x01#8 → ossEff o = 1) ∧ (o = 0x02#8 → ossEff o = 2) ∧
    (o = 0x03#8 → ossEff o = 3) ∧ (4 ≤ o.toNat → ossEff o = 0) ∧
    (ossEff o = 0 → (tconv (ossEff o)).toNat = 4500 ∧ (scaleK (ossEff o)).toNat = 50000 ∧ shiftSH (ossEff o) = 0 ∧
      upWidth (ossEff o) = 16) ∧
    (ossEff o = 1 → (tconv (ossEff o)).toNat = 7500 ∧ (scaleK (ossEff o)).toNat = 25000 ∧ shiftSH (ossEff o) = 1 ∧
      upWidth (ossEff o) = 17) ∧
    (ossEff o = 2 → (tconv (ossEff o)).toNat = 13500 ∧ (scaleK (ossEff o)).toNat = 12500 ∧ shiftSH (ossEff o) = 2 ∧
      upWidth (ossEff o) = 18) ∧
    (ossEff o = 3 → (tconv (ossEff o)).toNat = 25500 ∧ (scaleK (ossEff o)).toNat = 6250 ∧ shiftSH (ossEff o) = 3 ∧
      upWidth (ossEff o) = 19)

/-! ## The step -/

/-- 00_scope.md R12: the step runs the instruction that the fetched word decodes to, on the state in which the move has
been taken; taking it uses up its event and the free values of the transition (the model's own fields,
notes/assumptions/2.md and 3.md) and leaves the block alone. -/
def Obligations.StepRunsDecodedInstruction : Prop :=
  ∀ (s : State) (c : Code) (i : Instr), s.fetch = some c → decode c = .ok i →
    step s = exec i s.tick ∧ s.tick.ce = s.ce ∧
    s.tick.env = { s.env with events := s.env.events.tail, draws := s.env.draws + 1 }

/-- 00_scope.md R11 and 30_encoding.md R84, R85: which word is fetched. A host event brings its word; on the
sequencer's turn `MODE` with `STEP` or `LDCNT` selects, and nothing is selected when idle or (R209) while the source never
answers the read at hand (how that is held is the model's choice, notes/assumptions/4.md); an empty list of events is the
sequencer's turn (notes/assumptions/3.md). -/
def Obligations.FetchFollowsTurnAndMode : Prop :=
  (∀ (s : State) (t : BitVec 17) (es : List Event), s.env.events = .host t :: es → s.fetch = some (.host t)) ∧
    (∀ (s : State) (es : List Event), s.env.events = [] ∨ s.env.events = .seq :: es →
      (s.ce.mode = .computing → s.fetch = some (.pipe s.ce.step)) ∧
      (∀ r rs, s.ce.mode = .loading → s.env.srcAnswers = some r :: rs → s.fetch = some (.load s.ce.ldcnt)) ∧
      (∀ rs, s.ce.mode = .loading → s.env.srcAnswers = none :: rs → s.fetch = none) ∧
      (s.ce.mode = .loading → s.env.srcAnswers = [] → s.env.srcSilent = false → s.fetch = some (.load s.ce.ldcnt)) ∧
      (s.ce.mode = .loading → s.env.srcAnswers = [] → s.env.srcSilent = true → s.fetch = none) ∧
      (s.ce.mode = .idle → s.fetch = none))

/-- 70_reset_and_hazards.md R209, R200, 00_scope.md R12: on the sequencer's turn with no micro-step enabled (idle, or a load
whose read is never answered) the step leaves the block as it is, so such a load stays busy; a reset abandons it, and the
next load starts with the answers after that read (idle turns and the list of answers are the model's choice,
notes/assumptions/4.md, 11.md and 14.md). -/
def Obligations.NothingHappensWithoutAnEnabledAgent : Prop :=
  (∀ s : State, s.turn = .seq → s.fetch = none → step s = .next s.tick ∧ s.tick.ce = s.ce) ∧
    ∀ (s : State) (rs : List (Option (BitVec 9))), s.ce.mode = .loading → s.env.srcAnswers = none :: rs →
      (s.turn = .seq → ∃ t : State, step s = .next t ∧ t.ce = s.ce ∧ t.ce.busy = true ∧ t.env.srcAnswers = none :: rs) ∧
      (s.turn = .reset → ∃ t : State, step s = .next t ∧ t.ce = State.reset.ce ∧ t.env.srcAnswers = rs)

/-- 70_reset_and_hazards.md R200 and 10_state.md R37: reset, in any state, puts every piece of state at its reset
value, and `State.reset` has the same block. -/
def Obligations.ResetPutsEveryPieceAtItsResetValue : Prop :=
  (∀ s : State, s.turn = .reset → ∃ t : State, step s = .next t ∧ t.ce = State.reset.ce) ∧
    State.reset.ce.coef = none ∧ State.reset.ce.cvalid = false ∧ State.reset.ce.ossIn = 0x00#8 ∧
    (∀ k : Fin 6, State.reset.ce.sample[k] = none ∧ State.reset.ce.sw[k] = false) ∧ State.reset.ce.srdy = false ∧
    State.reset.ce.x1 = none ∧ State.reset.ce.x2 = none ∧ State.reset.ce.x3 = none ∧ State.reset.ce.b3 = none ∧
    State.reset.ce.b4 = none ∧ State.reset.ce.b5 = none ∧ State.reset.ce.b6 = none ∧ State.reset.ce.b7 = none ∧
    State.reset.ce.p = none ∧ State.reset.ce.temp = none ∧ State.reset.ce.press = none ∧
    State.reset.ce.step = 0#5 ∧ State.reset.ce.mode = .idle ∧ State.reset.ce.ldcnt = 0#5 ∧
    (∀ k : Fin 22, State.reset.ce.ldbuf[k] = none) ∧ State.reset.ce.done = false ∧
    State.reset.ce.fault = false ∧ State.reset.ce.ign = false ∧ State.reset.ce.finfo = 0x00#8 ∧
    State.reset.ce.status = 0x00#8 ∧ State.reset.oss = 0 ∧ (tconv State.reset.oss).toNat = 4500

/-! ## Host transactions and commands -/

/-- 10_state.md R32: the bits of `STATUS`. -/
def Obligations.StatusByteLayout : Prop :=
  ∀ c : CE,
    c.status.getLsbD 0 = c.cvalid ∧
    (c.status.getLsbD 1 = true ↔ ∀ k : Fin 6, c.sw[k] = true) ∧
    (c.status.getLsbD 2 = true ↔ c.mode = .loading ∨ c.mode = .computing) ∧
    c.status.getLsbD 3 = c.done ∧ c.status.getLsbD 4 = c.fault ∧ c.status.getLsbD 5 = c.ign ∧
    (c.status.getLsbD 6 = true ↔ c.mode = .loading) ∧ c.status.getLsbD 7 = false

/-- 40_host_access_and_commands.md R100 and 10_state.md R38: a read is answered in every state with the byte the
register map gives, big-endian inside a register, and changes nothing but the list of answers. Where the register holds
no value nothing is said of the byte. -/
def Obligations.ReadAnswersByTheRegisterMap : Prop :=
  ∀ (s : State) (a : Byte), ∃ d : Byte,
    exec (.rd a) s = .next { s with env := { s.env with hostAnswers := d :: s.env.hostAnswers } } ∧
    (∀ (i : Fin 11) (f : Vector Half 11), s.ce.cvalid = true → s.ce.coef = some f →
      (a.toNat = 2 * i.val → d.toNat = f[i].toNat / 256) ∧
      (a.toNat = 2 * i.val + 1 → d.toNat = f[i].toNat % 256)) ∧
    (a = 0x16#8 → d = s.ce.ossIn) ∧ (a = 0x17#8 → d = 0x00#8) ∧
    (∀ (k : Fin 6) (b : Byte), a.toNat = 0x18 + k.val → s.ce.sample[k] = some b → d = b) ∧
    (a = 0x1E#8 → d = s.ce.status) ∧ (a = 0x1F#8 → d = s.ce.finfo) ∧
    (∀ (j : Fin 4) (v : W32), a.toNat = 0x20 + j.val → s.ce.temp = some v →
      d.toNat = v.toNat / 256 ^ (3 - j.val) % 256) ∧
    (∀ (j : Fin 4) (v : W32), a.toNat = 0x24 + j.val → s.ce.press = some v →
      d.toNat = v.toNat / 256 ^ (3 - j.val) % 256) ∧
    (a = 0x28#8 → d.toNat = (tconv s.oss).toNat / 256) ∧ (a = 0x29#8 → d.toNat = (tconv s.oss).toNat % 256) ∧
    (a = 0x2A#8 → d.toNat = ossEff s.ce.ossIn) ∧ (a = 0x2B#8 → d.toNat = s.ce.step.toNat) ∧
    (∀ (n : Fin 9) (j : Fin 4) (v : W32), a.toNat = 0x30 + 4 * n.val + j.val →
      [s.ce.x1, s.ce.x2, s.ce.x3, s.ce.b3, s.ce.b4, s.ce.b5, s.ce.b6, s.ce.b7, s.ce.p][n]? = some (some v) →
      d.toNat = v.toNat / 256 ^ (3 - j.val) % 256) ∧
    (0x2C ≤ a.toNat → a.toNat ≤ 0x2F → d = 0x00#8) ∧ (0x54 ≤ a.toNat → d = 0x00#8)

/-- 40_host_access_and_commands.md R101: what a byte write does, by state and address. -/
def Obligations.WriteStoresInputsOrIsIgnored : Prop :=
  ∀ (s : State) (a d : Byte), a ≠ 0x17#8 →
    (s.ce.fault = true ∨ s.ce.busy = true → exec (.wr a d) s = .next (s.withCE { s.ce with ign := true })) ∧
    (s.ce.fault = false → s.ce.busy = false →
      (a = 0x16#8 → exec (.wr a d) s = .next (s.withCE { s.ce with ossIn := d })) ∧
      (∀ k : Fin 6, a.toNat = 0x18 + k.val → exec (.wr a d) s = .next (s.withCE { s.ce with
        sample := s.ce.sample.set k.val (some d) k.isLt, sw := s.ce.sw.set k.val true k.isLt })) ∧
      (a.toNat < 0x16 ∨ 0x1E ≤ a.toNat → exec (.wr a d) s = .next (s.withCE { s.ce with ign := true })))

/-- 20_memory.md R70: a read after an accepted write of the same byte answers the byte written, and a read of another
input byte that holds a value (10_state.md R36) answers as before the write. -/
def Obligations.ReadAfterAcceptedWrite : Prop :=
  ∀ (s t : State) (a b d : Byte), s.ce.fault = false → s.ce.busy = false →
    a = 0x16#8 ∨ (0x18 ≤ a.toNat ∧ a.toNat ≤ 0x1D) → exec (.wr a d) s = .next t →
    t.readByte a = d ∧
    (b ≠ a → b = 0x16#8 → t.readByte b = s.readByte b) ∧
    (b ≠ a → ∀ k : Fin 6, b.toNat = 0x18 + k.val → s.ce.sample[k].isSome = true → t.readByte b = s.readByte b)

/-- 40_host_access_and_commands.md R102: `NOP` has no effect and sets no flag, in any state. R106: a reserved command byte
sets `IGN` and nothing else, in every state. -/
def Obligations.NopDoesNothingAndReservedSetsIgn : Prop :=
  ∀ s : State, exec .nop s = .next s ∧
    ∀ c : Byte, 3 ≤ c.toNat → exec (.cmdReserved c) s = .next (s.withCE { s.ce with ign := true })

/-- 40_host_access_and_commands.md R103: when `LOAD` is accepted and what it does. -/
def Obligations.LoadStartsALoadOrIsIgnored : Prop :=
  ∀ s : State,
    (s.ce.fault = false ∧ s.ce.busy = false ∧ s.ce.cvalid = false →
      exec .load s = .next (s.withCE { s.ce with mode := .loading, ldcnt := 0#5 }) ∧
      ({ s.ce with mode := .loading, ldcnt := 0#5 } : CE).busy = true ∧
      ({ s.ce with mode := .loading, ldcnt := 0#5 } : CE).ldg = true) ∧
    (¬ (s.ce.fault = false ∧ s.ce.busy = false ∧ s.ce.cvalid = false) →
      exec .load s = .next (s.withCE { s.ce with ign := true }))

/-- 40_host_access_and_commands.md R105: when `COMPENSATE` is accepted and what it does. -/
def Obligations.CompensateStartsARunOrIsIgnored : Prop :=
  ∀ s : State,
    (s.ce.fault = false ∧ s.ce.busy = false ∧ s.ce.cvalid = true ∧ (∀ k : Fin 6, s.ce.sw[k] = true) →
      ∃ t : State, exec .compensate s = .next t ∧ t.ce.mode = .computing ∧ t.ce.step = 1#5 ∧ t.ce.done = false ∧
        (∀ k : Fin 6, t.ce.sw[k] = false) ∧
        t = s.withCE { s.ce with mode := .computing, step := 1#5, done := false, sw := t.ce.sw }) ∧
    (¬ (s.ce.fault = false ∧ s.ce.busy = false ∧ s.ce.cvalid = true ∧ (∀ k : Fin 6, s.ce.sw[k] = true)) →
      exec .compensate s = .next (s.withCE { s.ce with ign := true }))

/-- 40_host_access_and_commands.md R104: one load micro-step. It presents its address; a failed read takes the
transport fault; a byte is kept and the count moves on; the 22nd byte commits all 11 coefficients and `CVALID` at once.
The source's answer is the next one listed. -/
def Obligations.LoadStepReadsOneByte : Prop :=
  ∀ (s : State) (k : BitVec 5) (r : BitVec 9) (rs : List (Option (BitVec 9))), k.toNat ≤ 21 →
    s.env.srcAnswers = some r :: rs →
    ∃ (a : Byte) (s1 : State),
      (∀ i : Fin 11, (k.toNat = 2 * i.val → a = Config.srcAddrHi i) ∧ (k.toNat = 2 * i.val + 1 → a = Config.srcAddrLo i)) ∧
      s1 = { s with env := { s.env with srcAnswers := rs, srcRequests := a :: s.env.srcRequests } } ∧
      (r.getLsbD 8 = true → exec (.ldstep k) s = .next (raiseFault .transport k s1)) ∧
      (r.getLsbD 8 = false → k.toNat < 21 → exec (.ldstep k) s = .next (s1.withCE { s.ce with
        ldbuf := s.ce.ldbuf.setIfInBounds k.toNat (some (r.extractLsb' 0 8)), ldcnt := k + 1#5 })) ∧
      (r.getLsbD 8 = false → k.toNat = 21 → ∃ f : Vector Half 11,
        exec (.ldstep k) s = .next (s1.withCE { s.ce with
          ldbuf := s.ce.ldbuf.setIfInBounds 21 (some (r.extractLsb' 0 8)),
          coef := some f, cvalid := true, mode := .idle, ldcnt := 0#5 }) ∧
        ∀ (i : Fin 11) (hi lo : Byte),
          (s.ce.ldbuf.setIfInBounds 21 (some (r.extractLsb' 0 8)))[2 * i.val] = some hi →
          (s.ce.ldbuf.setIfInBounds 21 (some (r.extractLsb' 0 8)))[2 * i.val + 1] = some lo →
          f[i].toNat = hi.toNat * 256 + lo.toNat)

/-- 40_host_access_and_commands.md R104, 00_scope.md R11: a load micro-step completes for every answer `r` of the source to
the address it presents, also for one that is not listed (a free value, notes/assumptions/4.md): with the `FAIL` bit set it
takes the transport fault, with it clear it keeps the byte `r[7:0]` at `LDBUF[k]` and moves on or commits. -/
def Obligations.LoadStepCompletesForAnyAnswer : Prop :=
  ∀ (s : State) (k : BitVec 5), k.toNat ≤ 21 →
    let a := srcAddr k
    let r := s.srcAnswer a
    let s1 : State :=
      { s with env := { s.env with srcAnswers := s.env.srcAnswers.tail, srcRequests := a :: s.env.srcRequests } }
    (∀ i : Fin 11, (k.toNat = 2 * i.val → a = Config.srcAddrHi i) ∧ (k.toNat = 2 * i.val + 1 → a = Config.srcAddrLo i)) ∧
    (∀ r' rs, s.env.srcAnswers = some r' :: rs → r = r') ∧
    (r.getLsbD 8 = true → exec (.ldstep k) s = .next (raiseFault .transport k s1)) ∧
    (r.getLsbD 8 = false → ∃ t : State, exec (.ldstep k) s = .next t ∧ t.env = s1.env ∧
      t.ce.ldbuf = s.ce.ldbuf.setIfInBounds k.toNat (some (r.extractLsb' 0 8)) ∧
      (k.toNat < 21 → t.ce = { s.ce with ldbuf := t.ce.ldbuf, ldcnt := k + 1#5 }) ∧
      (k.toNat = 21 → ∃ f : Vector Half 11,
        t.ce = { s.ce with ldbuf := t.ce.ldbuf, coef := some f, cvalid := true, mode := .idle, ldcnt := 0#5 } ∧
        ∀ (i : Fin 11) (hi lo : Byte), t.ce.ldbuf[2 * i.val] = some hi → t.ce.ldbuf[2 * i.val + 1] = some lo →
          f[i].toNat = hi.toNat * 256 + lo.toNat))

/-! ## Fault entry -/

/-- 60_exceptions.md R183, R180: fault entry writes `FINFO`, `FAULT`, `MODE`, `STEP` and `LDCNT` and nothing else. -/
def Obligations.FaultEntryWritesOnlyFaultState : Prop :=
  ∀ (s : State) (c : Cause) (n : BitVec 5), ∃ f : Byte,
    raiseFault c n s = s.withCE { s.ce with finfo := f, fault := true, mode := .idle, step := 0#5, ldcnt := 0#5 } ∧
    f.extractLsb' 0 5 = n ∧
    (c = .transport → f.toNat = 0x20 + n.toNat) ∧ (c = .div0 → f.toNat = 0x40 + n.toNat) ∧
    (c = .ovf → f.toNat = 0x60 + n.toNat)

/-! ## Pipeline steps 1 to 4 -/

/-- 42_compensate_temperature.md R130. -/
def Obligations.Step1WritesX1OrOverflows : Prop :=
  ∀ s : State,
    let d := s.ut.toInt - s.a6.toInt
    let m := d * s.a5.toInt
    (-65535 ≤ d ∧ d ≤ 65535) ∧ (s.a5.toInt ≤ 32768 → -2147483648 ≤ m ∧ m ≤ 2147483647) ∧
    (-2147483648 ≤ m ∧ m ≤ 2147483647 → ∃ v : W32, v.toInt = m / 32768 ∧ -65536 ≤ v.toInt ∧ v.toInt ≤ 65535 ∧
      exec .u1 s = .next (s.withCE { s.ce with x1 := some v, step := 2#5 })) ∧
    (¬ (-2147483648 ≤ m ∧ m ≤ 2147483647) → exec .u1 s = .next (raiseFault .ovf 1#5 s))

/-- 42_compensate_temperature.md R131: the quotient rounds toward zero; in the range step 1 leaves `X1` in, the only
fault is the division by zero. -/
def Obligations.Step2DividesOrFaults : Prop :=
  ∀ s : State,
    let n := s.mc.toInt * 2048
    let den := s.x1.toInt + s.md.toInt
    (-67108864 ≤ n ∧ n ≤ 67106816) ∧
    (-65536 ≤ s.x1.toInt ∧ s.x1.toInt ≤ 65535 → -98304 ≤ den ∧ den ≤ 98302) ∧
    (den = 0 → exec .u2 s = .next (raiseFault .div0 2#5 s)) ∧
    (den ≠ 0 → -2147483648 ≤ den ∧ den ≤ 2147483647 →
      ∃ v : W32, v.toInt = n.sign * den.sign * (n.natAbs / den.natAbs : Nat) ∧
        -67108864 ≤ v.toInt ∧ v.toInt ≤ 67108864 ∧
        exec .u2 s = .next (s.withCE { s.ce with x2 := some v, step := 3#5 })) ∧
    (¬ (-2147483648 ≤ den ∧ den ≤ 2147483647) → exec .u2 s = .next (raiseFault .ovf 2#5 s))

/-- 42_compensate_temperature.md R132 and 43_compensate_pressure.md R143: both steps add the `X1` and `X2` at hand; in the ranges
the earlier steps leave them in, neither faults. -/
def Obligations.Steps3And8AddX1AndX2 : Prop :=
  ∀ s : State,
    let r := s.x1.toInt + s.x2.toInt
    (-65536 ≤ s.x1.toInt ∧ s.x1.toInt ≤ 65535 → -67108864 ≤ s.x2.toInt ∧ s.x2.toInt ≤ 67108864 →
      -67174400 ≤ r ∧ r ≤ 67174399) ∧
    (s.x1.toInt.natAbs ≤ 1048576 → s.x2.toInt.natAbs ≤ 741440 → -2147483648 ≤ r ∧ r ≤ 2147483647) ∧
    (-2147483648 ≤ r ∧ r ≤ 2147483647 → ∃ v : W32, v.toInt = r ∧
      exec .u3 s = .next (s.withCE { s.ce with b5 := some v, step := 4#5 }) ∧
      exec .u8 s = .next (s.withCE { s.ce with x3 := some v, step := 9#5 })) ∧
    (¬ (-2147483648 ≤ r ∧ r ≤ 2147483647) →
      exec .u3 s = .next (raiseFault .ovf 3#5 s) ∧ exec .u8 s = .next (raiseFault .ovf 8#5 s))

/-- 42_compensate_temperature.md R133: `TEMP` is `floor((B5 + 8) / 16)`; no flag is written. -/
def Obligations.Step4WritesTemperature : Prop :=
  ∀ s : State,
    (s.b5.toInt ≤ 2147483639 → ∃ v : W32, v.toInt = (s.b5.toInt + 8) / 16 ∧
      exec .u4 s = .next (s.withCE { s.ce with temp := some v, step := 5#5 })) ∧
    (2147483639 < s.b5.toInt → exec .u4 s = .next (raiseFault .ovf 4#5 s))

/-! ## Pipeline steps 5 to 18 -/

/-- 43_compensate_pressure.md R140. -/
def Obligations.Step5SubtractsIntoB6 : Prop :=
  ∀ s : State,
    (-2147479648 ≤ s.b5.toInt → ∃ v : W32, v.toInt = s.b5.toInt - 4000 ∧
      exec .u5 s = .next (s.withCE { s.ce with b6 := some v, step := 6#5 })) ∧
    (s.b5.toInt < -2147479648 → exec .u5 s = .next (raiseFault .ovf 5#5 s))

/-- 43_compensate_pressure.md R141. -/
def Obligations.Step6WritesX1OrOverflows : Prop :=
  ∀ s : State,
    let q := (s.b6.toInt * s.b6.toInt) / 4096
    let m2 := s.cb2.toInt * q
    (46341 ≤ s.b6.toInt.natAbs → exec .u6 s = .next (raiseFault .ovf 6#5 s)) ∧
    (s.b6.toInt.natAbs ≤ 46340 → 0 ≤ q ∧ q ≤ 524266 ∧
      (s.cb2.toInt.natAbs ≤ 4096 → -2147483648 ≤ m2 ∧ m2 ≤ 2147483647) ∧
      (-2147483648 ≤ m2 ∧ m2 ≤ 2147483647 → ∃ v : W32, v.toInt = m2 / 2048 ∧
        -1048576 ≤ v.toInt ∧ v.toInt ≤ 1048575 ∧
        exec .u6 s = .next (s.withCE { s.ce with x1 := some v, step := 7#5 })) ∧
      (¬ (-2147483648 ≤ m2 ∧ m2 ≤ 2147483647) → exec .u6 s = .next (raiseFault .ovf 6#5 s)))

/-- 43_compensate_pressure.md R142 and R145: a coefficient times `B6`, shifted; neither can fault once step 6 has completed, that
is for `|B6| ≤ 46340`. -/
def Obligations.Steps7And10ScaleB6 : Prop :=
  ∀ s : State,
    let m7 := s.a2.toInt * s.b6.toInt
    let m10 := s.a3.toInt * s.b6.toInt
    (s.b6.toInt.natAbs ≤ 46340 →
      -2147483648 ≤ m7 ∧ m7 ≤ 2147483647 ∧ -741440 ≤ m7 / 2048 ∧ m7 / 2048 ≤ 741440 ∧
      -2147483648 ≤ m10 ∧ m10 ≤ 2147483647 ∧ -185360 ≤ m10 / 8192 ∧ m10 / 8192 ≤ 185360) ∧
    (-2147483648 ≤ m7 ∧ m7 ≤ 2147483647 → ∃ v : W32, v.toInt = m7 / 2048 ∧
      exec .u7 s = .next (s.withCE { s.ce with x2 := some v, step := 8#5 })) ∧
    (¬ (-2147483648 ≤ m7 ∧ m7 ≤ 2147483647) → exec .u7 s = .next (raiseFault .ovf 7#5 s)) ∧
    (-2147483648 ≤ m10 ∧ m10 ≤ 2147483647 → ∃ v : W32, v.toInt = m10 / 8192 ∧
      exec .u10 s = .next (s.withCE { s.ce with x1 := some v, step := 11#5 })) ∧
    (¬ (-2147483648 ≤ m10 ∧ m10 ≤ 2147483647) → exec .u10 s = .next (raiseFault .ovf 10#5 s))

/-- 43_compensate_pressure.md R144: the shift amount is the clamped setting; in the range step 8 leaves `X3` in, it
never faults. -/
def Obligations.Step9WritesB3 : Prop :=
  ∀ s : State,
    let b := s.a1.toInt * 4 + s.x3.toInt
    let c := b * 2 ^ ossEff s.ce.ossIn
    let fits : Int → Prop := fun r => -2147483648 ≤ r ∧ r ≤ 2147483647
    (s.x3.toInt.natAbs ≤ 1790016 → b.natAbs < 2097152 ∧ fits b ∧ fits c ∧ fits (c + 2) ∧
      -3850000 < (c + 2) / 4 ∧ (c + 2) / 4 < 3850000) ∧
    (fits b ∧ fits c ∧ fits (c + 2) → ∃ v : W32, v.toInt = (c + 2) / 4 ∧
      exec .u9 s = .next (s.withCE { s.ce with b3 := some v, step := 10#5 })) ∧
    (¬ (fits b ∧ fits c ∧ fits (c + 2)) → exec .u9 s = .next (raiseFault .ovf 9#5 s))

/-- 43_compensate_pressure.md R146. -/
def Obligations.Step11WritesX2OrOverflows : Prop :=
  ∀ s : State,
    let q := (s.b6.toInt * s.b6.toInt) / 4096
    let m2 := s.cb1.toInt * q
    (46341 ≤ s.b6.toInt.natAbs → exec .u11 s = .next (raiseFault .ovf 11#5 s)) ∧
    (s.b6.toInt.natAbs ≤ 46340 →
      (s.cb1.toInt.natAbs ≤ 4096 → -2147483648 ≤ m2 ∧ m2 ≤ 2147483647) ∧
      (-2147483648 ≤ m2 ∧ m2 ≤ 2147483647 → ∃ v : W32, v.toInt = m2 / 65536 ∧
        -32768 ≤ v.toInt ∧ v.toInt ≤ 32767 ∧
        exec .u11 s = .next (s.withCE { s.ce with x2 := some v, step := 12#5 })) ∧
      (¬ (-2147483648 ≤ m2 ∧ m2 ≤ 2147483647) → exec .u11 s = .next (raiseFault .ovf 11#5 s)))

/-- 43_compensate_pressure.md R147. -/
def Obligations.Step12WritesX3 : Prop :=
  ∀ s : State,
    let r := s.x1.toInt + s.x2.toInt
    let fits : Int → Prop := fun r => -2147483648 ≤ r ∧ r ≤ 2147483647
    (s.x1.toInt.natAbs ≤ 185360 → -32768 ≤ s.x2.toInt → s.x2.toInt ≤ 32767 →
      fits r ∧ fits (r + 2) ∧ -54532 ≤ (r + 2) / 4 ∧ (r + 2) / 4 ≤ 54532) ∧
    (fits r ∧ fits (r + 2) → ∃ v : W32, v.toInt = (r + 2) / 4 ∧
      exec .u12 s = .next (s.withCE { s.ce with x3 := some v, step := 13#5 })) ∧
    (¬ (fits r ∧ fits (r + 2)) → exec .u12 s = .next (raiseFault .ovf 12#5 s))

/-- 43_compensate_pressure.md R148: signed sum, unsigned product modulo 2^32, logical shift; exact whenever
`0 ≤ X3 + 32768 ≤ 65536`. -/
def Obligations.Step13WritesB4Unsigned : Prop :=
  ∀ s : State,
    let a := s.x3.toInt + 32768
    (s.x3.toInt.natAbs ≤ 54532 → -21764 ≤ a ∧ a ≤ 87300) ∧
    (0 ≤ a → a ≤ 65536 → s.a4.toNat * a < 4294967296) ∧
    (a ≤ 2147483647 → ∃ v : W32, (v.toNat : Int) = (s.a4.toNat * (a % 4294967296)) % 4294967296 / 32768 ∧
      v.toNat ≤ 131071 ∧ exec .u13 s = .next (s.withCE { s.ce with b4 := some v, step := 14#5 })) ∧
    (2147483647 < a → exec .u13 s = .next (raiseFault .ovf 13#5 s))

/-- 43_compensate_pressure.md R149: unsigned throughout, never faults; the scale factor is that of the clamped
setting. -/
def Obligations.Step14WritesB7Unsigned : Prop :=
  ∀ s : State, ∃ v : W32,
    (v.toNat : Int) =
      (((s.up.toNat : Int) - s.b3.toInt) % 4294967296 * (50000 / 2 ^ ossEff s.ce.ossIn)) % 4294967296 ∧
    exec .u14 s = .next (s.withCE { s.ce with b7 := some v, step := 15#5 }) ∧
    (s.b3.toInt ≤ s.up.toNat →
      ((s.up.toNat : Int) - s.b3.toInt) * (50000 / 2 ^ ossEff s.ce.ossIn) ≤ 4294967295 →
      (v.toNat : Int) = ((s.up.toNat : Int) - s.b3.toInt) * (50000 / 2 ^ ossEff s.ce.ossIn))

/-- 43_compensate_pressure.md R150: both paths of step 15, chosen by `B7` alone; `DIV0` comes before `OVF` (60_exceptions.md
R182); `OVF` needs `B4 ≤ 3`; the high path's value is even and equal to the low path's formula or 1 less. -/
def Obligations.Step15DividesOnTwoPaths : Prop :=
  ∀ s : State,
    let b7 := s.b7.toNat
    let b4 := s.b4.toNat
    let q := if b7 < 2147483648 then 2 * b7 / b4 else (2 * (b7 / b4)) % 4294967296
    (b4 = 0 → exec .u15 s = .next (raiseFault .div0 15#5 s)) ∧
    (b4 ≠ 0 → 2147483648 ≤ q → b4 ≤ 3 ∧ exec .u15 s = .next (raiseFault .ovf 15#5 s)) ∧
    (b4 ≠ 0 → q < 2147483648 → ∃ v : W32, v.toInt = q ∧
      exec .u15 s = .next (s.withCE { s.ce with p := some v, step := 16#5 })) ∧
    (2147483648 ≤ b7 → 2 ≤ b4 → q % 2 = 0 ∧ (q = 2 * b7 / b4 ∨ q + 1 = 2 * b7 / b4))

/-- 43_compensate_pressure.md R150 and 90_conflicts.md C10: on the high path (`B7` of 2^31 or more, the doubling exact) the
pressure is that of the low path's formula, or 1 less. -/
def Obligations.HighPathLosesAtMostOnePascal : Prop :=
  ∀ b7 b4 : Nat, 2147483648 ≤ b7 → b7 < 4294967296 → 2 ≤ b4 → 2 * b7 / b4 ≤ 215295 →
    correctedPressure (2 * (b7 / b4) : Nat) = correctedPressure (2 * b7 / b4 : Nat) ∨
      correctedPressure (2 * (b7 / b4) : Nat) + 1 = correctedPressure (2 * b7 / b4 : Nat)

/-- 43_compensate_pressure.md R151: two assignments to `X1`; a fault of the second leaves the first made; for the values step
15 can leave, the step completes exactly when `p ≤ 215295`. -/
def Obligations.Step16AssignsX1Twice : Prop :=
  ∀ s : State,
    let a := s.p.toInt / 256
    (0 ≤ s.p.toInt →
      (46341 ≤ a ↔ 11863296 ≤ s.p.toInt) ∧ (46341 ≤ a → exec .u16 s = .next (raiseFault .ovf 16#5 s)) ∧
      (a ≤ 46340 → ∃ v : W32, v.toInt = a * a ∧
        (215296 ≤ s.p.toInt → 706875 ≤ v.toInt ∧
          exec .u16 s = .next (raiseFault .ovf 16#5 (s.withCE { s.ce with x1 := some v }))) ∧
        (s.p.toInt ≤ 215295 → ∃ w : W32, w.toInt = v.toInt * 3038 / 65536 ∧ 0 ≤ w.toInt ∧ w.toInt ≤ 32708 ∧
          exec .u16 s = .next (s.withCE { s.ce with x1 := some w, step := 17#5 })))) ∧
    (s.p.toInt < 0 →
      (a * a > 2147483647 → exec .u16 s = .next (raiseFault .ovf 16#5 s)) ∧
      (a * a ≤ 2147483647 → ∃ v : W32, v.toInt = a * a ∧
        (v.toInt * 3038 > 2147483647 →
          exec .u16 s = .next (raiseFault .ovf 16#5 (s.withCE { s.ce with x1 := some v }))) ∧
        (v.toInt * 3038 ≤ 2147483647 → ∃ w : W32, w.toInt = v.toInt * 3038 / 65536 ∧
          exec .u16 s = .next (s.withCE { s.ce with x1 := some w, step := 17#5 }))))

/-- 43_compensate_pressure.md R152: cannot fault once step 16 has completed. -/
def Obligations.Step17WritesX2 : Prop :=
  ∀ s : State,
    let m := -7357 * s.p.toInt
    (0 ≤ s.p.toInt → s.p.toInt ≤ 215295 →
      -2147483648 ≤ m ∧ m ≤ 2147483647 ∧ -24169 ≤ m / 65536 ∧ m / 65536 ≤ 0) ∧
    (-2147483648 ≤ m ∧ m ≤ 2147483647 → ∃ v : W32, v.toInt = m / 65536 ∧
      exec .u17 s = .next (s.withCE { s.ce with x2 := some v, step := 18#5 })) ∧
    (¬ (-2147483648 ≤ m ∧ m ≤ 2147483647) → exec .u17 s = .next (raiseFault .ovf 17#5 s))

/-- 43_compensate_pressure.md R153, R154: `PRESS` and completion, in one transition; in the ranges steps 16 and 17 leave, it
never faults. -/
def Obligations.Step18WritesPressureAndCompletes : Prop :=
  ∀ s : State,
    let r := s.x1.toInt + s.x2.toInt
    let y := s.p.toInt + (r + 3791) / 16
    let fits : Int → Prop := fun r => -2147483648 ≤ r ∧ r ≤ 2147483647
    (0 ≤ s.p.toInt → s.p.toInt ≤ 215295 → 0 ≤ s.x1.toInt → s.x1.toInt ≤ 32708 → -24169 ≤ s.x2.toInt →
      s.x2.toInt ≤ 0 → fits r ∧ fits (r + 3791) ∧ fits y) ∧
    (fits r ∧ fits (r + 3791) ∧ fits y → ∃ v : W32, v.toInt = y ∧
      exec .u18 s = .next (s.withCE { s.ce with press := some v, done := true, mode := .idle, step := 0#5 })) ∧
    (¬ (fits r ∧ fits (r + 3791) ∧ fits y) → exec .u18 s = .next (raiseFault .ovf 18#5 s))

/-- 43_compensate_pressure.md R153: over `p` in 0 to 215295 the corrected pressure is nondecreasing, from 236 to 216065. -/
def Obligations.CorrectedPressureIsMonotone : Prop :=
  correctedPressure 0 = 236 ∧ correctedPressure 215295 = 216065 ∧
    ∀ p q : Int, 0 ≤ p → p ≤ q → q ≤ 215295 → correctedPressure p ≤ correctedPressure q

/-! ## The machine as a whole -/

/-- The reset state is legal (10_state.md R37). -/
def Obligations.ResetStateIsLegal : Prop := State.reset.ce.Inv ∧ State.reset.ce.Bounds

/-- 10_state.md R21, R26, R30 to R33, R36: every step from a legal state leads to a legal state, whatever the host, the
source and the schedule do. -/
def Obligations.EveryStepKeepsLegality : Prop :=
  ∀ s t : State, s.ce.Inv → step s = .next t → t.ce.Inv

/-- From a legal state the machine always has a next state: no host word, answer or schedule stops it. -/
def Obligations.LegalMachineNeverStops : Prop :=
  ∀ s : State, s.ce.Inv → ∃ t : State, step s = .next t

/-- 42_compensate_temperature.md R130 to R132, 43_compensate_pressure.md R140 to R153: the ranges the rules give for the working
registers of a run are kept by every step. -/
def Obligations.EveryStepKeepsRegisterBounds : Prop :=
  ∀ s t : State, s.ce.Inv → s.ce.Bounds → step s = .next t → t.ce.Bounds

/-- 60_exceptions.md R180, R183 and 43_compensate_pressure.md R158: the only values `FINFO` ever takes. A fault of steps 3, 4, 5,
7, 8, 9, 10, 12, 13, 14, 17 or 18 is unreachable, and so is one that names another cause of a step. -/
def Obligations.OnlyListedFaultsOccur : Prop :=
  ∀ s t : State, s.ce.Inv → s.ce.Bounds → finfoProduced s.ce.finfo = true → step s = .next t →
    finfoProduced t.ce.finfo = true

/-- 10_state.md R32: what sets and what clears each status bit. `BUSY` and `LDG` fall on the sequencer's turn only by a
completion or a fault entry, and `IGN` rises only by a host write that changes nothing else. -/
def Obligations.StatusBitsChangeOnlyAsListed : Prop :=
  ∀ s t : State, s.ce.Inv → step s = .next t →
    (s.ce.cvalid = false → t.ce.cvalid = true → s.turn = .seq ∧ s.ce.mode = .loading ∧ s.ce.ldcnt = 21#5) ∧
    (s.ce.cvalid = true → t.ce.cvalid = false → s.turn = .reset) ∧
    (s.ce.srdy = false → t.ce.srdy = true → ∃ (k : Fin 6) (d : Byte), ∃ w : BitVec 17, s.turn = .host w ∧
      decodeHost w = .wr (BitVec.ofNat 8 (0x18 + k.val)) d) ∧
    (s.ce.srdy = true → t.ce.srdy = false → s.turn = .reset ∨ s.turn = .host 0x11702#17) ∧
    (s.ce.busy = false → t.ce.busy = true → s.turn = .host 0x11701#17 ∨ s.turn = .host 0x11702#17) ∧
    (s.ce.busy = true → t.ce.busy = false → s.turn = .reset ∨ (s.turn = .seq ∧
      ((s.ce.mode = .computing ∧ s.ce.step = 18#5 ∧ t.ce.done = true) ∨
        (s.ce.mode = .loading ∧ s.ce.ldcnt = 21#5 ∧ t.ce.cvalid = true) ∨ t.ce.fault = true))) ∧
    (s.ce.done = false → t.ce.done = true → s.turn = .seq ∧ s.ce.mode = .computing ∧ s.ce.step = 18#5) ∧
    (s.ce.done = true → t.ce.done = false → s.turn = .reset ∨ s.turn = .host 0x11702#17) ∧
    (s.ce.fault = false → t.ce.fault = true → s.turn = .seq ∧ s.ce.busy = true ∧ t.ce.busy = false) ∧
    (s.ce.fault = true → t.ce.fault = false → s.turn = .reset) ∧
    (s.ce.ign = false → t.ce.ign = true → (∃ w : BitVec 17, s.turn = .host w ∧ w.getLsbD 16 = true ∧ w ≠ 0x11700#17) ∧
      t.ce = { s.ce with ign := true }) ∧
    (s.ce.ign = true → t.ce.ign = false → s.turn = .reset) ∧
    (s.ce.ldg = false → t.ce.ldg = true → s.turn = .host 0x11701#17) ∧
    (s.ce.ldg = true → t.ce.ldg = false → s.turn = .reset ∨ (s.turn = .seq ∧
      ((s.ce.ldcnt = 21#5 ∧ t.ce.cvalid = true) ∨ t.ce.fault = true)))

/-- 10_state.md R21: once `CVALID` is 1 no step but reset changes a coefficient. -/
def Obligations.LoadedCoefficientsAreImmutable : Prop :=
  ∀ s t : State, s.ce.Inv → s.ce.cvalid = true → s.turn ≠ .reset → step s = .next t →
    t.ce.cvalid = true ∧ t.ce.coef = s.ce.coef

/-- 60_exceptions.md R184: after a fault every step but reset completes and leaves the block as it is, but for `IGN`. -/
def Obligations.FaultedBlockChangesOnlyIgn : Prop :=
  ∀ s : State, s.ce.Inv → s.ce.fault = true → s.turn ≠ .reset →
    ∃ t : State, step s = .next t ∧ (t.ce = s.ce ∨ t.ce = { s.ce with ign := true })

/-- 40_host_access_and_commands.md R101, R108 and 70_reset_and_hazards.md R203: while busy a host transaction changes nothing of
the block but `IGN`, and a read or `NOP` not even that. -/
def Obligations.HostCannotDisturbABusyBlock : Prop :=
  ∀ (s : State) (w : BitVec 17), s.ce.busy = true → s.turn = .host w →
    ∃ t : State, step s = .next t ∧
      (w.getLsbD 16 = false ∨ w = 0x11700#17 → t.ce = s.ce) ∧
      (w.getLsbD 16 = true → w ≠ 0x11700#17 → t.ce = { s.ce with ign := true })

/-! ## Whole runs -/

/-- 42_compensate_temperature.md R134, 43_compensate_pressure.md R154, R155, 10_state.md R28: on well-formed inputs (00_scope.md R14)
the 18 micro-steps of an accepted `COMPENSATE` end with the mathematical temperature and pressure. That the sequencer moves
with no event listed is the model's choice (notes/assumptions/3.md). -/
def Obligations.RunComputesTheReference : Prop :=
  ∀ s : State, s.ce.Inv → s.ce.mode = .computing → s.ce.step = 1#5 → s.env.events = [] → s.inputs.WellFormed →
    ∃ (t : State) (vt vp w1 w2 w3 : W32), Host.Core.run Sys2Proof.core 18 s = .next t ∧
      t.ce.done = true ∧ t.ce.mode = .idle ∧ t.ce.step = 0#5 ∧ t.ce.fault = false ∧
      t.ce.temp = some vt ∧ vt.toInt = s.inputs.temp ∧
      t.ce.press = some vp ∧ vp.toInt = s.inputs.press ∧
      t.ce.x1 = some w1 ∧ w1.toInt = (s.inputs.p / 256) * (s.inputs.p / 256) * 3038 / 65536 ∧
      t.ce.x2 = some w2 ∧ w2.toInt = (-7357 * s.inputs.p) / 65536 ∧
      t.ce.x3 = some w3 ∧ w3.toInt = s.inputs.x3b ∧
      t.ce.coef = s.ce.coef ∧ t.ce.sample = s.ce.sample ∧ t.ce.ossIn = s.ce.ossIn ∧ t.ce.ign = s.ce.ign

/-- 70_reset_and_hazards.md R211: left to the sequencer, a compensation with step `n` next ends after at most `19 - n` micro-steps,
with `DONE = 1` or `FAULT = 1`. That the sequencer moves with no event listed is the model's choice
(notes/assumptions/3.md). -/
def Obligations.CompensationAlwaysEnds : Prop :=
  ∀ s : State, s.ce.Inv → s.ce.mode = .computing → s.env.events = [] →
    ∃ (n : Nat) (t : State), n + s.ce.step.toNat ≤ 19 ∧ Host.Core.run Sys2Proof.core n s = .next t ∧
      t.ce.busy = false ∧ (t.ce.done = true ∨ t.ce.fault = true)

/-- 70_reset_and_hazards.md R211: left to the sequencer, and if the coefficient source answers every read, a load with read `k`
next ends after at most `22 - k` micro-steps, with `CVALID = 1` or `FAULT = 1`. That the sequencer moves with no event listed
is the model's choice (notes/assumptions/3.md), and so is how the source's answers are held (notes/assumptions/4.md). -/
def Obligations.LoadEndsIfTheSourceAnswers : Prop :=
  ∀ s : State, s.ce.Inv → s.ce.mode = .loading → s.env.events = [] → none ∉ s.env.srcAnswers → s.env.srcSilent = false →
    ∃ (n : Nat) (t : State), n + s.ce.ldcnt.toNat ≤ 22 ∧ Host.Core.run Sys2Proof.core n s = .next t ∧
      t.ce.busy = false ∧ (t.ce.cvalid = true ∨ t.ce.fault = true)

/-- 40_host_access_and_commands.md R104, 20_memory.md R65, R75: a load whose 22 reads succeed makes exactly the 22 requests, in
coefficient order and most significant byte first, and commits exactly the bytes answered. That the sequencer moves with
no event listed, and the list of answers, are the model's choice (notes/assumptions/3.md and 4.md). -/
def Obligations.SuccessfulLoadCommitsTheAnsweredBytes : Prop :=
  ∀ (s : State) (bs : Vector Byte 22) (rest : List (Option (BitVec 9))),
    s.ce.mode = .loading → s.ce.ldcnt = 0#5 → s.env.events = [] →
    s.env.srcAnswers = bs.toList.map (fun b => some (0#1 ++ b)) ++ rest →
    ∃ (t : State) (f : Vector Half 11), Host.Core.run Sys2Proof.core 22 s = .next t ∧
      (∀ i : Fin 11, f[i].toNat = bs[2 * i.val].toNat * 256 + bs[2 * i.val + 1].toNat) ∧
      t.ce = { s.ce with coef := some f, cvalid := true, mode := .idle, ldcnt := 0#5, ldbuf := t.ce.ldbuf } ∧
      t.env.srcAnswers = rest ∧
      t.env.srcRequests =
        ((List.finRange 11).flatMap fun i => [Config.srcAddrHi i, Config.srcAddrLo i]).reverse ++ s.env.srcRequests

/-- 40_host_access_and_commands.md R104, 60_exceptions.md R183: a load whose read `k` fails ends there, after `k + 1` reads, with
`FINFO = 0x20 + k`; from a legal state no coefficient holds a value after it. That the file is left as it was is
notes/assumptions/19.md; that the sequencer moves with no event listed, and the list of answers, are the model's choice
(notes/assumptions/3.md and 4.md). -/
def Obligations.FailedReadEndsTheLoad : Prop :=
  ∀ (s : State) (bs : List Byte) (r : BitVec 9) (rest : List (Option (BitVec 9))),
    s.ce.mode = .loading → s.ce.ldcnt = 0#5 → s.env.events = [] → bs.length ≤ 21 → r.getLsbD 8 = true →
    s.env.srcAnswers = bs.map (fun b => some (0#1 ++ b)) ++ some r :: rest →
    ∃ t : State, Host.Core.run Sys2Proof.core (bs.length + 1) s = .next t ∧
      t.ce = { s.ce with finfo := BitVec.ofNat 8 (0x20 + bs.length), fault := true, mode := .idle, step := 0#5,
                         ldcnt := 0#5, ldbuf := t.ce.ldbuf } ∧
      (s.ce.Inv → t.ce.coef = none ∧ t.ce.cvalid = false) ∧
      t.env.srcAnswers = rest ∧
      t.env.srcRequests.length = s.env.srcRequests.length + bs.length + 1

/-- 00_scope.md R13: the outcome of an accepted `COMPENSATE` is a function of its inputs: two legal states that agree on them
end the same way, whatever else they hold. That the sequencer moves with no event listed is the model's choice
(notes/assumptions/3.md), and so are its turns after a fault, which change nothing (notes/assumptions/14.md). -/
def Obligations.RunOutcomeDependsOnInputsOnly : Prop :=
  ∀ s s' : State, s.ce.Inv → s'.ce.Inv → s.ce.mode = .computing → s'.ce.mode = .computing → s.ce.step = 1#5 →
    s'.ce.step = 1#5 → s.env.events = [] → s'.env.events = [] → s.inputs = s'.inputs →
    ∃ t t' : State, Host.Core.run Sys2Proof.core 18 s = .next t ∧ Host.Core.run Sys2Proof.core 18 s' = .next t' ∧
      t.ce.done = t'.ce.done ∧ t.ce.fault = t'.ce.fault ∧ t.ce.finfo = t'.ce.finfo ∧
      (t.ce.done = true → t.ce.temp = t'.ce.temp ∧ t.ce.press = t'.ce.press)

/-- 00_scope.md R12, R13, 20_memory.md R73: however host transactions fall between the micro-steps of a run, the run ends as it
does without them, but for `IGN`. The schedule, and that the sequencer moves with no event listed, are the model's choice
(notes/assumptions/3.md), and so are its turns after a fault, which change nothing (notes/assumptions/14.md). -/
def Obligations.InterleavedHostDoesNotChangeARun : Prop :=
  ∀ (s : State) (es : List Event), s.ce.Inv → s.ce.mode = .computing → s.ce.step = 1#5 →
    s.env.events = es ++ [.seq] → .reset ∉ es → es.count .seq = 17 →
    ∃ t u : State, Host.Core.run Sys2Proof.core (es.length + 1) s = .next t ∧
      Host.Core.run Sys2Proof.core 18 { s with env := { s.env with events := [] } } = .next u ∧
      ({ t.ce with ign := false } : CE) = { u.ce with ign := false }

/-! ## On the host's side -/

/-- 44_altitude.md R171: over the reals the altitude strictly decreases with the pressure, is 0 at 101325 Pa, positive below and
negative above. -/
def Obligations.AltitudeDecreasesThroughZero : Prop :=
  (∀ (p q : Int) (hp hq : ℝ), 0 < p → p < q → IsAltitude p hp → IsAltitude q hq → hq < hp) ∧
    (∀ (p : Int) (h : ℝ), 0 < p → IsAltitude p h →
      (p = 101325 → h = 0) ∧ (p < 101325 → 0 < h) ∧ (101325 < p → h < 0))

/-- 44_altitude.md R174, R170, R173, 42_compensate_temperature.md R135, 70_reset_and_hazards.md R204: after a completed run the bytes
a host reads at 0x20 and 0x24 are `TEMP` and `PRESS`, `STATUS` says that they are results, and the output triple is
`TEMP / 10`, `PRESS` and the altitude of `PRESS`, which the formula always gives since `PRESS` is at least 236 (43_compensate_pressure.md
R153). The floating-point altitude is whatever the open parameter `ALT_FP` gives (R172, notes/assumptions/15.md). -/
def Obligations.CompletedRunDeliversTheOutputTriple : Prop :=
  ∀ s : State, s.ce.Inv → s.ce.Bounds → s.ce.done = true →
    ∃ vt vp : W32, s.ce.temp = some vt ∧ s.ce.press = some vp ∧ 236 ≤ vp.toInt ∧
      joinBytes32 (s.readByte 0x20#8) (s.readByte 0x21#8) (s.readByte 0x22#8) (s.readByte 0x23#8) = vt ∧
      joinBytes32 (s.readByte 0x24#8) (s.readByte 0x25#8) (s.readByte 0x26#8) (s.readByte 0x27#8) = vp ∧
      resultsReady (s.readByte 0x1E#8) = true ∧
      (∀ r : CompensatedReading ℝ, IsReading vt vp r ↔ r.temperature = (vt.toInt : Rat) / 10 ∧ r.pressure = vp.toInt ∧
        r.altitude = 44330 * (1 - ((vp.toInt : ℝ) / 101325) ^ ((1 : ℝ) / 5.255))) ∧
      ∀ fp : AltFp, s.reading fp = some
        { temperature := (vt.toInt : Rat) / 10, pressure := vp.toInt, altitude := fp.altitude vp.toInt }
end

