-- ==== Sys2Proof/Laws/Decode.lean ====
section
/-! SUPPORT. The bits and the fields of a host word (spec/30_encoding.md R81). -/

namespace Sys2Proof

theorem wrWord_getLsbD (a d : Byte) (i : Nat) :
    (wrWord a d).getLsbD i =
      if i < 8 then d.getLsbD i else if i < 16 then a.getLsbD (i - 8) else decide (i = 16) := by
  change (1#1 ++ a ++ d : BitVec (1 + 8 + 8)).getLsbD i = _
  rw [BitVec.getLsbD_append, BitVec.getLsbD_append]
  by_cases h1 : i < 8
  · simp [h1]
  · by_cases h2 : i < 16
    · have h3 : i - 8 < 8 := by omega
      simp [h1, h2, h3]
    · have h3 : ¬ i - 8 < 8 := by omega
      have h4 : (i - 8 - 8 = 0) = (i = 16) := by apply propext; omega
      simp [h1, h2, h3, h4]

theorem rdWord_getLsbD (a : Byte) (i : Nat) :
    (rdWord a).getLsbD i = if i < 8 then false else if i < 16 then a.getLsbD (i - 8) else false := by
  change (0#1 ++ a ++ 0#8 : BitVec (1 + 8 + 8)).getLsbD i = _
  rw [BitVec.getLsbD_append, BitVec.getLsbD_append]
  by_cases h1 : i < 8
  · simp [h1]
  · by_cases h2 : i < 16
    · have h3 : i - 8 < 8 := by omega
      simp [h1, h2, h3]
    · have h3 : ¬ i - 8 < 8 := by omega
      simp [h1, h2, h3]

theorem addrField_wrWord (a d : Byte) : addrField (wrWord a d) = a := by
  apply BitVec.eq_of_getLsbD_eq
  intro i hi
  rw [addrField, BitVec.getLsbD_extractLsb', wrWord_getLsbD]
  interval_cases i <;> simp

theorem dataField_wrWord (a d : Byte) : dataField (wrWord a d) = d := by
  apply BitVec.eq_of_getLsbD_eq
  intro i hi
  rw [dataField, BitVec.getLsbD_extractLsb', wrWord_getLsbD]
  interval_cases i <;> simp

theorem addrField_rdWord (a : Byte) : addrField (rdWord a) = a := by
  apply BitVec.eq_of_getLsbD_eq
  intro i hi
  rw [addrField, BitVec.getLsbD_extractLsb', rdWord_getLsbD]
  interval_cases i <;> simp

theorem wrWord_bits (a d : Byte) : (wrWord a d).toNat &&& 0x10000 = 0x10000 := by
  have h : wrWord a d &&& 0x10000#17 = 0x10000#17 := by
    apply BitVec.eq_of_getLsbD_eq
    intro i hi
    rw [BitVec.getLsbD_and, wrWord_getLsbD]
    interval_cases i <;> simp
  simpa [BitVec.toNat_and] using congrArg BitVec.toNat h

theorem rdWord_bits (a : Byte) : (rdWord a).toNat &&& 0x10000 = 0 := by
  have h : rdWord a &&& 0x10000#17 = 0#17 := by
    apply BitVec.eq_of_getLsbD_eq
    intro i hi
    rw [BitVec.getLsbD_and, rdWord_getLsbD]
    interval_cases i <;> simp
  simpa [BitVec.toNat_and] using congrArg BitVec.toNat h

theorem cmdWord_bits (c : Byte) : (wrWord 0x17#8 c).toNat &&& 0x1FF00 = 0x11700 := by
  revert c
  decide

end Sys2Proof
end

