-- ==== Sys2Proof/Laws/State.lean ====
section
/-! SUPPORT. One lemma per field per named update of the state, true by rfl. -/

namespace Sys2Proof.Machine

/-! ## `State.withCE` -/

@[simp] theorem State.withCE_ce (s : State) (c : CE) : (s.withCE c).ce = c := rfl
@[simp] theorem State.withCE_env (s : State) (c : CE) : (s.withCE c).env = s.env := rfl
@[simp] theorem State.withCE_withCE (s : State) (c d : CE) : (s.withCE c).withCE d = s.withCE d := rfl

/-! ## `State.answer` -/

@[simp] theorem State.answer_ce (s : State) (d : Byte) : (s.answer d).ce = s.ce := rfl
@[simp] theorem State.answer_events (s : State) (d : Byte) : (s.answer d).env.events = s.env.events := rfl
@[simp] theorem State.answer_srcAnswers (s : State) (d : Byte) : (s.answer d).env.srcAnswers = s.env.srcAnswers := rfl
@[simp] theorem State.answer_srcSilent (s : State) (d : Byte) : (s.answer d).env.srcSilent = s.env.srcSilent := rfl
@[simp] theorem State.answer_hostAnswers (s : State) (d : Byte) : (s.answer d).env.hostAnswers = d :: s.env.hostAnswers := rfl
@[simp] theorem State.answer_srcRequests (s : State) (d : Byte) : (s.answer d).env.srcRequests = s.env.srcRequests := rfl
@[simp] theorem State.answer_draws (s : State) (d : Byte) : (s.answer d).env.draws = s.env.draws := rfl

/-! ## `State.afterRequest` -/

@[simp] theorem State.afterRequest_ce (s : State) (a : Byte) : (s.afterRequest a).ce = s.ce := rfl
@[simp] theorem State.afterRequest_events (s : State) (a : Byte) : (s.afterRequest a).env.events = s.env.events := rfl
@[simp] theorem State.afterRequest_srcAnswers (s : State) (a : Byte) : (s.afterRequest a).env.srcAnswers = s.env.srcAnswers.tail := rfl
@[simp] theorem State.afterRequest_srcSilent (s : State) (a : Byte) : (s.afterRequest a).env.srcSilent = s.env.srcSilent := rfl
@[simp] theorem State.afterRequest_hostAnswers (s : State) (a : Byte) : (s.afterRequest a).env.hostAnswers = s.env.hostAnswers := rfl
@[simp] theorem State.afterRequest_srcRequests (s : State) (a : Byte) : (s.afterRequest a).env.srcRequests = a :: s.env.srcRequests := rfl
@[simp] theorem State.afterRequest_draws (s : State) (a : Byte) : (s.afterRequest a).env.draws = s.env.draws := rfl

/-! ## `State.tick` -/

@[simp] theorem State.tick_ce (s : State) : s.tick.ce = s.ce := rfl
@[simp] theorem State.tick_events (s : State) : s.tick.env.events = s.env.events.tail := rfl
@[simp] theorem State.tick_srcAnswers (s : State) : s.tick.env.srcAnswers = s.env.srcAnswers := rfl
@[simp] theorem State.tick_srcSilent (s : State) : s.tick.env.srcSilent = s.env.srcSilent := rfl
@[simp] theorem State.tick_hostAnswers (s : State) : s.tick.env.hostAnswers = s.env.hostAnswers := rfl
@[simp] theorem State.tick_srcRequests (s : State) : s.tick.env.srcRequests = s.env.srcRequests := rfl
@[simp] theorem State.tick_draws (s : State) : s.tick.env.draws = s.env.draws + 1 := rfl

/-! ## `raiseFault`, `State.ignoreWrite`, `State.applyReset` -/

@[simp] theorem raiseFault_ce (c : Cause) (n : BitVec 5) (s : State) : (raiseFault c n s).ce = s.ce.faultEntry c n := rfl
@[simp] theorem raiseFault_env (c : Cause) (n : BitVec 5) (s : State) : (raiseFault c n s).env = s.env := rfl
@[simp] theorem State.ignoreWrite_ce (s : State) : s.ignoreWrite.ce = { s.ce with ign := true } := rfl
@[simp] theorem State.ignoreWrite_env (s : State) : s.ignoreWrite.env = s.env := rfl
@[simp] theorem State.applyReset_ce (s : State) : s.applyReset.ce = CE.reset := rfl
@[simp] theorem State.applyReset_events (s : State) : s.applyReset.env.events = s.env.events := rfl
@[simp] theorem State.applyReset_srcAnswers (s : State) : s.applyReset.env.srcAnswers = s.answersAfterReset := rfl
@[simp] theorem State.applyReset_srcSilent (s : State) : s.applyReset.env.srcSilent = s.env.srcSilent := rfl
@[simp] theorem State.applyReset_hostAnswers (s : State) : s.applyReset.env.hostAnswers = s.env.hostAnswers := rfl
@[simp] theorem State.applyReset_srcRequests (s : State) : s.applyReset.env.srcRequests = s.env.srcRequests := rfl
@[simp] theorem State.applyReset_draws (s : State) : s.applyReset.env.draws = s.env.draws := rfl

@[simp] theorem giveUpUnanswered_nil : giveUpUnanswered [] = [] := rfl
@[simp] theorem giveUpUnanswered_some (r : BitVec 9) (rs : List (Option (BitVec 9))) :
    giveUpUnanswered (some r :: rs) = some r :: rs := rfl
@[simp] theorem giveUpUnanswered_none (rs : List (Option (BitVec 9))) : giveUpUnanswered (none :: rs) = rs := rfl

/-! ## `CE.faultEntry` (R183) -/

@[simp] theorem CE.faultEntry_coef (b : CE) (c : Cause) (n : BitVec 5) : (b.faultEntry c n).coef = b.coef := rfl
@[simp] theorem CE.faultEntry_cvalid (b : CE) (c : Cause) (n : BitVec 5) : (b.faultEntry c n).cvalid = b.cvalid := rfl
@[simp] theorem CE.faultEntry_ossIn (b : CE) (c : Cause) (n : BitVec 5) : (b.faultEntry c n).ossIn = b.ossIn := rfl
@[simp] theorem CE.faultEntry_sample (b : CE) (c : Cause) (n : BitVec 5) : (b.faultEntry c n).sample = b.sample := rfl
@[simp] theorem CE.faultEntry_sw (b : CE) (c : Cause) (n : BitVec 5) : (b.faultEntry c n).sw = b.sw := rfl
@[simp] theorem CE.faultEntry_x1 (b : CE) (c : Cause) (n : BitVec 5) : (b.faultEntry c n).x1 = b.x1 := rfl
@[simp] theorem CE.faultEntry_x2 (b : CE) (c : Cause) (n : BitVec 5) : (b.faultEntry c n).x2 = b.x2 := rfl
@[simp] theorem CE.faultEntry_x3 (b : CE) (c : Cause) (n : BitVec 5) : (b.faultEntry c n).x3 = b.x3 := rfl
@[simp] theorem CE.faultEntry_b3 (b : CE) (c : Cause) (n : BitVec 5) : (b.faultEntry c n).b3 = b.b3 := rfl
@[simp] theorem CE.faultEntry_b4 (b : CE) (c : Cause) (n : BitVec 5) : (b.faultEntry c n).b4 = b.b4 := rfl
@[simp] theorem CE.faultEntry_b5 (b : CE) (c : Cause) (n : BitVec 5) : (b.faultEntry c n).b5 = b.b5 := rfl
@[simp] theorem CE.faultEntry_b6 (b : CE) (c : Cause) (n : BitVec 5) : (b.faultEntry c n).b6 = b.b6 := rfl
@[simp] theorem CE.faultEntry_b7 (b : CE) (c : Cause) (n : BitVec 5) : (b.faultEntry c n).b7 = b.b7 := rfl
@[simp] theorem CE.faultEntry_p (b : CE) (c : Cause) (n : BitVec 5) : (b.faultEntry c n).p = b.p := rfl
@[simp] theorem CE.faultEntry_temp (b : CE) (c : Cause) (n : BitVec 5) : (b.faultEntry c n).temp = b.temp := rfl
@[simp] theorem CE.faultEntry_press (b : CE) (c : Cause) (n : BitVec 5) : (b.faultEntry c n).press = b.press := rfl
@[simp] theorem CE.faultEntry_step (b : CE) (c : Cause) (n : BitVec 5) : (b.faultEntry c n).step = 0#5 := rfl
@[simp] theorem CE.faultEntry_mode (b : CE) (c : Cause) (n : BitVec 5) : (b.faultEntry c n).mode = .idle := rfl
@[simp] theorem CE.faultEntry_ldcnt (b : CE) (c : Cause) (n : BitVec 5) : (b.faultEntry c n).ldcnt = 0#5 := rfl
@[simp] theorem CE.faultEntry_ldbuf (b : CE) (c : Cause) (n : BitVec 5) : (b.faultEntry c n).ldbuf = b.ldbuf := rfl
@[simp] theorem CE.faultEntry_done (b : CE) (c : Cause) (n : BitVec 5) : (b.faultEntry c n).done = b.done := rfl
@[simp] theorem CE.faultEntry_fault (b : CE) (c : Cause) (n : BitVec 5) : (b.faultEntry c n).fault = true := rfl
@[simp] theorem CE.faultEntry_ign (b : CE) (c : Cause) (n : BitVec 5) : (b.faultEntry c n).ign = b.ign := rfl
@[simp] theorem CE.faultEntry_finfo (b : CE) (c : Cause) (n : BitVec 5) : (b.faultEntry c n).finfo = c.code ++ n := rfl

/-! ## `CE.complete` (R154) -/

@[simp] theorem CE.complete_coef (b : CE) : b.complete.coef = b.coef := rfl
@[simp] theorem CE.complete_cvalid (b : CE) : b.complete.cvalid = b.cvalid := rfl
@[simp] theorem CE.complete_ossIn (b : CE) : b.complete.ossIn = b.ossIn := rfl
@[simp] theorem CE.complete_sample (b : CE) : b.complete.sample = b.sample := rfl
@[simp] theorem CE.complete_sw (b : CE) : b.complete.sw = b.sw := rfl
@[simp] theorem CE.complete_x1 (b : CE) : b.complete.x1 = b.x1 := rfl
@[simp] theorem CE.complete_x2 (b : CE) : b.complete.x2 = b.x2 := rfl
@[simp] theorem CE.complete_x3 (b : CE) : b.complete.x3 = b.x3 := rfl
@[simp] theorem CE.complete_b3 (b : CE) : b.complete.b3 = b.b3 := rfl
@[simp] theorem CE.complete_b4 (b : CE) : b.complete.b4 = b.b4 := rfl
@[simp] theorem CE.complete_b5 (b : CE) : b.complete.b5 = b.b5 := rfl
@[simp] theorem CE.complete_b6 (b : CE) : b.complete.b6 = b.b6 := rfl
@[simp] theorem CE.complete_b7 (b : CE) : b.complete.b7 = b.b7 := rfl
@[simp] theorem CE.complete_p (b : CE) : b.complete.p = b.p := rfl
@[simp] theorem CE.complete_temp (b : CE) : b.complete.temp = b.temp := rfl
@[simp] theorem CE.complete_press (b : CE) : b.complete.press = b.press := rfl
@[simp] theorem CE.complete_step (b : CE) : b.complete.step = 0#5 := rfl
@[simp] theorem CE.complete_mode (b : CE) : b.complete.mode = .idle := rfl
@[simp] theorem CE.complete_ldcnt (b : CE) : b.complete.ldcnt = b.ldcnt := rfl
@[simp] theorem CE.complete_ldbuf (b : CE) : b.complete.ldbuf = b.ldbuf := rfl
@[simp] theorem CE.complete_done (b : CE) : b.complete.done = true := rfl
@[simp] theorem CE.complete_fault (b : CE) : b.complete.fault = b.fault := rfl
@[simp] theorem CE.complete_ign (b : CE) : b.complete.ign = b.ign := rfl
@[simp] theorem CE.complete_finfo (b : CE) : b.complete.finfo = b.finfo := rfl

/-! ## `CE.storeSample` (R101) -/

@[simp] theorem CE.storeSample_coef (b : CE) (k : Nat) (d : Byte) : (b.storeSample k d).coef = b.coef := rfl
@[simp] theorem CE.storeSample_cvalid (b : CE) (k : Nat) (d : Byte) : (b.storeSample k d).cvalid = b.cvalid := rfl
@[simp] theorem CE.storeSample_ossIn (b : CE) (k : Nat) (d : Byte) : (b.storeSample k d).ossIn = b.ossIn := rfl
@[simp] theorem CE.storeSample_sample (b : CE) (k : Nat) (d : Byte) : (b.storeSample k d).sample = b.sample.setIfInBounds k (some d) := rfl
@[simp] theorem CE.storeSample_sw (b : CE) (k : Nat) (d : Byte) : (b.storeSample k d).sw = b.sw.setIfInBounds k true := rfl
@[simp] theorem CE.storeSample_x1 (b : CE) (k : Nat) (d : Byte) : (b.storeSample k d).x1 = b.x1 := rfl
@[simp] theorem CE.storeSample_x2 (b : CE) (k : Nat) (d : Byte) : (b.storeSample k d).x2 = b.x2 := rfl
@[simp] theorem CE.storeSample_x3 (b : CE) (k : Nat) (d : Byte) : (b.storeSample k d).x3 = b.x3 := rfl
@[simp] theorem CE.storeSample_b3 (b : CE) (k : Nat) (d : Byte) : (b.storeSample k d).b3 = b.b3 := rfl
@[simp] theorem CE.storeSample_b4 (b : CE) (k : Nat) (d : Byte) : (b.storeSample k d).b4 = b.b4 := rfl
@[simp] theorem CE.storeSample_b5 (b : CE) (k : Nat) (d : Byte) : (b.storeSample k d).b5 = b.b5 := rfl
@[simp] theorem CE.storeSample_b6 (b : CE) (k : Nat) (d : Byte) : (b.storeSample k d).b6 = b.b6 := rfl
@[simp] theorem CE.storeSample_b7 (b : CE) (k : Nat) (d : Byte) : (b.storeSample k d).b7 = b.b7 := rfl
@[simp] theorem CE.storeSample_p (b : CE) (k : Nat) (d : Byte) : (b.storeSample k d).p = b.p := rfl
@[simp] theorem CE.storeSample_temp (b : CE) (k : Nat) (d : Byte) : (b.storeSample k d).temp = b.temp := rfl
@[simp] theorem CE.storeSample_press (b : CE) (k : Nat) (d : Byte) : (b.storeSample k d).press = b.press := rfl
@[simp] theorem CE.storeSample_step (b : CE) (k : Nat) (d : Byte) : (b.storeSample k d).step = b.step := rfl
@[simp] theorem CE.storeSample_mode (b : CE) (k : Nat) (d : Byte) : (b.storeSample k d).mode = b.mode := rfl
@[simp] theorem CE.storeSample_ldcnt (b : CE) (k : Nat) (d : Byte) : (b.storeSample k d).ldcnt = b.ldcnt := rfl
@[simp] theorem CE.storeSample_ldbuf (b : CE) (k : Nat) (d : Byte) : (b.storeSample k d).ldbuf = b.ldbuf := rfl
@[simp] theorem CE.storeSample_done (b : CE) (k : Nat) (d : Byte) : (b.storeSample k d).done = b.done := rfl
@[simp] theorem CE.storeSample_fault (b : CE) (k : Nat) (d : Byte) : (b.storeSample k d).fault = b.fault := rfl
@[simp] theorem CE.storeSample_ign (b : CE) (k : Nat) (d : Byte) : (b.storeSample k d).ign = b.ign := rfl
@[simp] theorem CE.storeSample_finfo (b : CE) (k : Nat) (d : Byte) : (b.storeSample k d).finfo = b.finfo := rfl

end Sys2Proof.Machine
end

