-- ==== Sys2Proof/Laws/Flags.lean ====
section
/-! SUPPORT. The status flags by mode, and the bits of `STATUS` and `FINFO` (spec/10_state.md R31 to R33). -/

namespace Sys2Proof.Machine

theorem CE.busy_iff (c : CE) : c.busy = true ↔ c.mode ≠ .idle := by
  unfold CE.busy
  cases c.mode <;> simp

theorem CE.ldg_iff (c : CE) : c.ldg = true ↔ c.mode = .loading := by
  unfold CE.ldg
  cases c.mode <;> simp

theorem CE.accepts_iff (c : CE) : c.accepts = true ↔ c.fault = false ∧ c.mode = .idle := by
  unfold CE.accepts CE.busy
  cases c.mode <;> simp

/-- The bits of a byte put together from eight one-bit values, most significant first. -/
theorem statusBits (b7 b6 b5 b4 b3 b2 b1 b0 : Bool) :
    let v : Byte := BitVec.ofBool b7 ++ BitVec.ofBool b6 ++ BitVec.ofBool b5 ++ BitVec.ofBool b4 ++
      BitVec.ofBool b3 ++ BitVec.ofBool b2 ++ BitVec.ofBool b1 ++ BitVec.ofBool b0
    v.getLsbD 0 = b0 ∧ v.getLsbD 1 = b1 ∧ v.getLsbD 2 = b2 ∧ v.getLsbD 3 = b3 ∧ v.getLsbD 4 = b4 ∧
      v.getLsbD 5 = b5 ∧ v.getLsbD 6 = b6 ∧ v.getLsbD 7 = b7 := by
  revert b7 b6 b5 b4 b3 b2 b1 b0
  decide

/-- `CAUSE` and `FSTEP` of a fault entry are what was raised. -/
theorem CE.faultEntry_cause (b : CE) (c : Cause) (n : BitVec 5) : (b.faultEntry c n).cause = c.code := by
  simp only [CE.cause, CE.faultEntry_finfo]
  revert n
  cases c <;> decide

theorem CE.faultEntry_fstep (b : CE) (c : Cause) (n : BitVec 5) : (b.faultEntry c n).fstep = n := by
  simp only [CE.fstep, CE.faultEntry_finfo]
  revert n
  cases c <;> decide

end Sys2Proof.Machine
end

