-- ==== Sys2Proof/Laws/Ops.lean ====
section
/-! SUPPORT. What each primitive answers (spec/00_scope.md R6 to R8), and what a pipeline step's end can be (R9). -/

namespace Sys2Proof.Machine

/-! ## Sequencing of primitives -/

theorem ok_bind {α β : Type} (a : α) (f : α → Except Cause β) : (Except.ok a >>= f) = f a := rfl

theorem error_bind {α β : Type} (c : Cause) (f : α → Except Cause β) :
    ((Except.error c : Except Cause α) >>= f) = .error c := rfl

theorem pure_eq_ok {α : Type} (a : α) : (pure a : Except Cause α) = .ok a := rfl

/-! ## The signed range -/

theorem fitsS32_iff (r : Int) : fitsS32 r = true ↔ -2147483648 ≤ r ∧ r ≤ 2147483647 := by
  simp [fitsS32]

theorem toInt_range (a : W32) : -2147483648 ≤ a.toInt ∧ a.toInt ≤ 2147483647 := by
  have h1 := BitVec.le_toInt a
  have h2 := BitVec.toInt_lt (x := a)
  norm_num at h1 h2
  omega

theorem fitsS32_toInt (a : W32) : fitsS32 a.toInt = true := (fitsS32_iff _).2 (toInt_range a)

/-- Narrowing keeps an integer of the signed range. -/
theorem toInt_ofInt_of_fits {r : Int} (h : fitsS32 r = true) : (BitVec.ofInt 32 r).toInt = r := by
  obtain ⟨h1, h2⟩ := (fitsS32_iff r).1 h
  rw [BitVec.toInt_ofInt]
  exact Int.bmod_eq_of_le (by norm_num; omega) (by norm_num; omega)

theorem narrowS32_of_fits {r : Int} (h : fitsS32 r = true) : narrowS32 r = .ok (BitVec.ofInt 32 r) := by
  simp [narrowS32, h]

theorem narrowS32_of_not_fits {r : Int} (h : ¬ fitsS32 r = true) : narrowS32 r = .error .ovf := by
  simp [narrowS32, h]

/-- Everything narrowing can do. -/
theorem narrowS32_cases (r : Int) :
    (fitsS32 r = true ∧ ∃ v, narrowS32 r = .ok v ∧ v.toInt = r) ∨
      (fitsS32 r = false ∧ narrowS32 r = .error .ovf) := by
  by_cases h : fitsS32 r = true
  · exact .inl ⟨h, _, narrowS32_of_fits h, toInt_ofInt_of_fits h⟩
  · exact .inr ⟨by simpa using h, narrowS32_of_not_fits h⟩

/-- A narrowed result is the exact integer. -/
theorem narrowS32_eq_ok {r : Int} {v : W32} (h : narrowS32 r = .ok v) : fitsS32 r = true ∧ v.toInt = r := by
  rcases narrowS32_cases r with ⟨hf, w, hw, ht⟩ | ⟨_, he⟩
  · rw [hw] at h
    cases h
    exact ⟨hf, ht⟩
  · rw [he] at h
    cases h

theorem narrowS32_eq_error {r : Int} {c : Cause} (h : narrowS32 r = .error c) : fitsS32 r = false ∧ c = .ovf := by
  rcases narrowS32_cases r with ⟨_, w, hw, _⟩ | ⟨hf, he⟩
  · rw [hw] at h
    cases h
  · rw [he] at h
    cases h
    exact ⟨hf, rfl⟩

/-! ## Shifts -/

/-- A right shift of a signed value stays in the range, so it is exact. -/
theorem fits_shift (a : W32) (k : Nat) : fitsS32 (a.toInt / 2 ^ k) = true := by
  obtain ⟨h1, h2⟩ := toInt_range a
  have hp : (0 : Int) < 2 ^ k := by positivity
  have hp1 : (1 : Int) ≤ 2 ^ k := hp
  refine (fitsS32_iff _).2 ⟨?_, ?_⟩
  · rw [Int.le_ediv_iff_mul_le hp]
    nlinarith
  · refine Int.le_of_lt_add_one ((Int.ediv_lt_iff_lt_mul hp).2 ?_)
    nlinarith

/-- `asr32` is the floor of the quotient (R6). -/
theorem asr32_toInt (a : W32) (k : Nat) : (asr32 a k).toInt = a.toInt / 2 ^ k :=
  toInt_ofInt_of_fits (fits_shift a k)

/-- `lsr32` is the floor of the quotient (R7). -/
theorem lsr32_toNat (a : W32) (k : Nat) : (lsr32 a k).toNat = a.toNat / 2 ^ k := by
  have h : a.toNat / 2 ^ k ≤ a.toNat := Nat.div_le_self _ _
  have h2 := a.isLt
  simp only [lsr32, BitVec.toNat_ofNat]
  exact Nat.mod_eq_of_lt (by omega)

/-! ## Unsigned primitives -/

theorem umul32_toNat (a b : W32) : (umul32 a b).toNat = a.toNat * b.toNat % 2 ^ 32 := by
  simp [umul32]

theorem uadd32_toNat (a b : W32) : (uadd32 a b).toNat = (a.toNat + b.toNat) % 2 ^ 32 := by
  simp [uadd32]

theorem usub32_toNat (a b : W32) : ((usub32 a b).toNat : Int) = ((a.toNat : Int) - b.toNat) % 2 ^ 32 := by
  have h : (0 : Int) ≤ ((a.toNat : Int) - b.toNat) % 2 ^ 32 := Int.emod_nonneg _ (by norm_num)
  simp only [usub32, BitVec.toNat_ofInt]
  norm_num at h ⊢
  omega

/-! ## Conversions -/

/-- The cast to unsigned keeps the bits (R8). -/
@[simp] theorem toU32_eq (a : W32) : toU32 a = a := by
  simp [toU32]

/-- An unsigned value below 2^31 is its own signed value. -/
theorem toInt_of_lt {u : W32} (h : u.toNat < 2 ^ 31) : u.toInt = u.toNat := by
  rw [BitVec.toInt_eq_toNat_cond]
  split
  · rfl
  · omega

/-! ## The end of a pipeline step (R9) -/

theorem State.settle_ok (s : State) (n : BitVec 5) (v : W32) (put : CE → W32 → CE) :
    s.settle n (.ok v) put = s.withCE (put s.ce v) := rfl

theorem State.settle_error (s : State) (n : BitVec 5) (c : Cause) (put : CE → W32 → CE) :
    s.settle n (.error c) put = raiseFault c n s := rfl

/-- A step's end changes nothing outside the block. -/
@[simp] theorem State.settle_env (s : State) (n : BitVec 5) (r : Except Cause W32) (put : CE → W32 → CE) :
    (s.settle n r put).env = s.env := by
  cases r <;> rfl

/-- A pipeline step either writes its value and moves on, or takes the fault of its first failing primitive. -/
theorem State.settle_cases (s : State) (n : BitVec 5) (r : Except Cause W32) (put : CE → W32 → CE) :
    (∃ v, r = .ok v ∧ s.settle n r put = s.withCE (put s.ce v)) ∨
      (∃ c, r = .error c ∧ s.settle n r put = raiseFault c n s) := by
  cases r with
  | ok v => exact .inl ⟨v, rfl, rfl⟩
  | error c => exact .inr ⟨c, rfl, rfl⟩

end Sys2Proof.Machine
end

