-- ==== Sys2Proof/Laws/Operands.lean ====
section
/-! SUPPORT. The operands of the pipeline steps: their values when the registers hold one, their ranges, and what they
depend on (spec/10_state.md R20, R24, R25). -/

namespace Sys2Proof.Machine

theorem regValue_some (draws : Nat) (a : Byte) (v : W32) : regValue draws a (some v) = v := rfl

theorem State.coefBits_of_some (s : State) (i : Fin 11) {f : Vector Half 11} (h : s.ce.coef = some f) :
    s.coefBits i = f[i] := by
  simp [State.coefBits, h]

theorem State.sampleByte_of_some (s : State) (k : Fin 6) {d : Byte} (h : s.ce.sample[k] = some d) :
    s.sampleByte k = d := by
  unfold State.sampleByte
  rw [h]

/-- An unsigned coefficient is its 16 bits as a number. -/
theorem State.coefValue_unsigned (s : State) (i : Fin 11) (h : coefUnsigned i = true) :
    (s.coefValue i).toInt = (s.coefBits i).toNat := by
  have hb := (s.coefBits i).isLt
  have hn : ((s.coefBits i).setWidth 32).toNat = (s.coefBits i).toNat := by
    rw [BitVec.toNat_setWidth]
    exact Nat.mod_eq_of_lt (by omega)
  simp only [State.coefValue, h, if_true]
  rw [toInt_of_lt (by omega), hn]

/-- A signed coefficient is its 16 bits in two's complement. -/
theorem State.coefValue_signed (s : State) (i : Fin 11) (h : coefUnsigned i = false) :
    (s.coefValue i).toInt = (s.coefBits i).toInt := by
  simp only [State.coefValue, h]
  exact BitVec.toInt_signExtend_of_le (by norm_num)

theorem State.coefValue_range_unsigned (s : State) (i : Fin 11) (h : coefUnsigned i = true) :
    0 ≤ (s.coefValue i).toInt ∧ (s.coefValue i).toInt ≤ 65535 := by
  have hb := (s.coefBits i).isLt
  rw [s.coefValue_unsigned i h]
  omega

theorem State.coefValue_range_signed (s : State) (i : Fin 11) (h : coefUnsigned i = false) :
    -32768 ≤ (s.coefValue i).toInt ∧ (s.coefValue i).toInt ≤ 32767 := by
  rw [s.coefValue_signed i h]
  have h1 := BitVec.le_toInt (s.coefBits i)
  have h2 := BitVec.toInt_lt (x := s.coefBits i)
  norm_num at h1 h2
  omega

/-- `UT` in the pipeline is its 16 bits as a number (R24). -/
theorem State.ut_toInt (s : State) : s.ut.toInt = s.utBits.toNat := by
  have hb := s.utBits.isLt
  have hn : (s.utBits.setWidth 32).toNat = s.utBits.toNat := by
    rw [BitVec.toNat_setWidth]
    exact Nat.mod_eq_of_lt (by omega)
  unfold State.ut
  rw [toInt_of_lt (by omega), hn]

theorem State.ut_range (s : State) : 0 ≤ s.ut.toInt ∧ s.ut.toInt ≤ 65535 := by
  have hb := s.utBits.isLt
  rw [s.ut_toInt]
  omega

/-- The clamped level is 0 to 3 (R120). -/
theorem ossEff_le (o : Byte) : ossEff o ≤ 3 := by
  unfold ossEff
  split <;> omega

theorem State.oss_le (s : State) : s.oss ≤ 3 := ossEff_le _

/-- The scale factor is exact (R122). -/
theorem scaleK_toNat (o : Nat) : (scaleK o).toNat = 50000 / 2 ^ o := by
  have h : 50000 / 2 ^ o ≤ 50000 := Nat.div_le_self _ _
  simp only [scaleK, BitVec.toNat_ofNat]
  exact Nat.mod_eq_of_lt (by omega)

end Sys2Proof.Machine
end

