-- ==== Sys2Proof/Laws/PerInstr.lean ====
section
/-! SUPPORT. A fact about every instruction as syntax, one lemma per constructor. -/

namespace Sys2Proof.Laws

/-- An encoded instruction carries the fixed bits of its own row of spec/opcode_table.json. -/
def EncodingCarriesRow.Statement (i : Instr) : Prop :=
  WellFormed i → (encode i).bits &&& i.row.2 = i.row.1

theorem EncodingCarriesRow.rd (a : Byte) : EncodingCarriesRow.Statement (.rd a) := fun _ => rdWord_bits a
theorem EncodingCarriesRow.wr (a d : Byte) : EncodingCarriesRow.Statement (.wr a d) := fun _ => wrWord_bits a d
theorem EncodingCarriesRow.nop : EncodingCarriesRow.Statement .nop := fun _ => by decide
theorem EncodingCarriesRow.load : EncodingCarriesRow.Statement .load := fun _ => by decide
theorem EncodingCarriesRow.compensate : EncodingCarriesRow.Statement .compensate := fun _ => by decide
theorem EncodingCarriesRow.cmdReserved (c : Byte) : EncodingCarriesRow.Statement (.cmdReserved c) := fun _ => cmdWord_bits c
theorem EncodingCarriesRow.ldstep (k : BitVec 5) : EncodingCarriesRow.Statement (.ldstep k) := fun _ => Nat.and_zero _
theorem EncodingCarriesRow.u1 : EncodingCarriesRow.Statement .u1 := fun _ => by decide
theorem EncodingCarriesRow.u2 : EncodingCarriesRow.Statement .u2 := fun _ => by decide
theorem EncodingCarriesRow.u3 : EncodingCarriesRow.Statement .u3 := fun _ => by decide
theorem EncodingCarriesRow.u4 : EncodingCarriesRow.Statement .u4 := fun _ => by decide
theorem EncodingCarriesRow.u5 : EncodingCarriesRow.Statement .u5 := fun _ => by decide
theorem EncodingCarriesRow.u6 : EncodingCarriesRow.Statement .u6 := fun _ => by decide
theorem EncodingCarriesRow.u7 : EncodingCarriesRow.Statement .u7 := fun _ => by decide
theorem EncodingCarriesRow.u8 : EncodingCarriesRow.Statement .u8 := fun _ => by decide
theorem EncodingCarriesRow.u9 : EncodingCarriesRow.Statement .u9 := fun _ => by decide
theorem EncodingCarriesRow.u10 : EncodingCarriesRow.Statement .u10 := fun _ => by decide
theorem EncodingCarriesRow.u11 : EncodingCarriesRow.Statement .u11 := fun _ => by decide
theorem EncodingCarriesRow.u12 : EncodingCarriesRow.Statement .u12 := fun _ => by decide
theorem EncodingCarriesRow.u13 : EncodingCarriesRow.Statement .u13 := fun _ => by decide
theorem EncodingCarriesRow.u14 : EncodingCarriesRow.Statement .u14 := fun _ => by decide
theorem EncodingCarriesRow.u15 : EncodingCarriesRow.Statement .u15 := fun _ => by decide
theorem EncodingCarriesRow.u16 : EncodingCarriesRow.Statement .u16 := fun _ => by decide
theorem EncodingCarriesRow.u17 : EncodingCarriesRow.Statement .u17 := fun _ => by decide
theorem EncodingCarriesRow.u18 : EncodingCarriesRow.Statement .u18 := fun _ => by decide

end Sys2Proof.Laws
end

