-- ==== Sys2Proof/Laws/Step.lean ====
section
/-! SUPPORT. Whose turn it is and what it fetches (spec/00_scope.md R12), and everything one write, command or load
micro-step can do to the block. -/

namespace Sys2Proof.Machine

/-! ## Turn and fetch -/

theorem State.turn_nil {s : State} (h : s.env.events = []) : s.turn = .seq := by
  simp [State.turn, h]

theorem State.turn_cons {s : State} {e : Event} {es : List Event} (h : s.env.events = e :: es) : s.turn = e := by
  simp [State.turn, h]

theorem State.fetch_host {s : State} {t : BitVec 17} (h : s.turn = .host t) : s.fetch = some (.host t) := by
  simp [State.fetch, h]

theorem State.fetch_seq {s : State} (h : s.turn = .seq) : s.fetch = s.microCode := by
  simp [State.fetch, h]

theorem State.fetch_reset {s : State} (h : s.turn = .reset) : s.fetch = none := by
  simp [State.fetch, h]

theorem State.microCode_idle {s : State} (h : s.ce.mode = .idle) : s.microCode = none := by
  simp [State.microCode, h]

theorem State.microCode_loading {s : State} (h : s.ce.mode = .loading) (hs : s.sourceAnswers = true) :
    s.microCode = some (.load s.ce.ldcnt) := by
  simp [State.microCode, h, hs]

theorem State.microCode_waiting {s : State} (h : s.ce.mode = .loading) (hs : s.sourceAnswers = false) :
    s.microCode = none := by
  simp [State.microCode, h, hs]

theorem State.microCode_computing {s : State} (h : s.ce.mode = .computing) :
    s.microCode = some (.pipe s.ce.step) := by
  simp [State.microCode, h]

/-! ## Whether the source answers, and what -/

theorem State.sourceAnswers_some {s : State} {r : BitVec 9} {rs : List (Option (BitVec 9))}
    (h : s.env.srcAnswers = some r :: rs) : s.sourceAnswers = true := by
  simp [State.sourceAnswers, h]

theorem State.sourceAnswers_none {s : State} {rs : List (Option (BitVec 9))} (h : s.env.srcAnswers = none :: rs) :
    s.sourceAnswers = false := by
  simp [State.sourceAnswers, h]

theorem State.sourceAnswers_nil {s : State} (h : s.env.srcAnswers = []) : s.sourceAnswers = !s.env.srcSilent := by
  simp [State.sourceAnswers, h]

theorem State.srcAnswer_some {s : State} {r : BitVec 9} {rs : List (Option (BitVec 9))} (a : Byte)
    (h : s.env.srcAnswers = some r :: rs) : s.srcAnswer a = r := by
  simp [State.srcAnswer, h]

/-- A reset gives up exactly a load's read that the source never answers. -/
theorem State.answersAfterReset_loading {s : State} (h : s.ce.mode = .loading) :
    s.answersAfterReset = giveUpUnanswered s.env.srcAnswers := by
  simp [State.answersAfterReset, h]

theorem State.answersAfterReset_of_not_loading {s : State} (h : s.ce.mode ≠ .loading) :
    s.answersAfterReset = s.env.srcAnswers := by
  unfold State.answersAfterReset
  split
  · rfl
  · contradiction
  · rfl

/-! ## What a host write can do -/

/-- A write is ignored, or stores `OSS_IN`, or stores one sample byte. -/
theorem State.writeByte_cases (s : State) (a d : Byte) :
    s.writeByte a d = s.ignoreWrite ∨
      (s.ce.accepts = true ∧ a.toNat = 0x16 ∧ s.writeByte a d = s.withCE { s.ce with ossIn := d }) ∨
      (s.ce.accepts = true ∧ 0x18 ≤ a.toNat ∧ a.toNat ≤ 0x1D ∧
        s.writeByte a d = s.withCE (s.ce.storeSample (a.toNat - 0x18) d)) := by
  unfold State.writeByte
  split
  · exact .inl rfl
  · rename_i h
    have ha : s.ce.accepts = true := by simpa using h
    split
    · exact .inr (.inl ⟨ha, ‹_›, rfl⟩)
    · split
      · rename_i h2
        exact .inr (.inr ⟨ha, h2.1, h2.2, rfl⟩)
      · exact .inl rfl

/-! ## What the commands can do -/

theorem State.loadCommand_cases (s : State) :
    s.loadCommand = s.ignoreWrite ∨
      (s.ce.accepts = true ∧ s.ce.cvalid = false ∧
        s.loadCommand = s.withCE { s.ce with mode := .loading, ldcnt := 0#5 }) := by
  unfold State.loadCommand
  split
  · rename_i h
    simp only [Bool.and_eq_true, Bool.not_eq_true'] at h
    exact .inr ⟨h.1, h.2, rfl⟩
  · exact .inl rfl

theorem State.compensateCommand_cases (s : State) :
    s.compensateCommand = s.ignoreWrite ∨
      (s.ce.accepts = true ∧ s.ce.cvalid = true ∧ s.ce.srdy = true ∧
        s.compensateCommand = s.withCE { s.ce with mode := .computing, step := 1#5, done := false,
                                                   sw := #v[false, false, false, false, false, false] }) := by
  unfold State.compensateCommand
  split
  · rename_i h
    simp only [Bool.and_eq_true] at h
    exact .inr ⟨h.1.1, h.1.2, h.2, rfl⟩
  · exact .inl rfl

/-! ## What a load micro-step can do -/

/-- The source failed and the fault is taken, or it answered and the block takes the byte. -/
theorem State.loadStep_cases (s : State) (k : BitVec 5) :
    (responseByte (s.srcAnswer (srcAddr k)) = none ∧
        s.loadStep k = raiseFault .transport k (s.afterRequest (srcAddr k))) ∨
      (∃ d, responseByte (s.srcAnswer (srcAddr k)) = some d ∧
        s.loadStep k = (s.afterRequest (srcAddr k)).withCE (s.ce.takeLoadByte s.env.draws k d)) := by
  unfold State.loadStep
  cases h : responseByte (s.srcAnswer (srcAddr k)) with
  | none => exact .inl ⟨rfl, rfl⟩
  | some d => exact .inr ⟨d, rfl, rfl⟩

/-! ## The two assignments of step 16 -/

/-- Everything step 16 can do (43_compensate_pressure.md R151). -/
theorem State.stepU16_cases (s : State) :
    (∃ c, u16Square s = .error c ∧ s.stepU16 = raiseFault c 16#5 s) ∨
      (∃ v c, u16Square s = .ok v ∧ u16Value (s.withCE { s.ce with x1 := some v }) = .error c ∧
        s.stepU16 = raiseFault c 16#5 (s.withCE { s.ce with x1 := some v })) ∨
      (∃ v w, u16Square s = .ok v ∧ u16Value (s.withCE { s.ce with x1 := some v }) = .ok w ∧
        s.stepU16 = s.withCE { s.ce with x1 := some w, step := 17#5 }) := by
  unfold State.stepU16
  cases h : u16Square s with
  | error c => exact .inl ⟨c, rfl, rfl⟩
  | ok v =>
    cases h2 : u16Value (s.withCE { s.ce with x1 := some v }) with
    | error c => exact .inr (.inl ⟨v, c, rfl, h2, by simp [h2, State.settle_error]⟩)
    | ok w => exact .inr (.inr ⟨v, w, rfl, h2, by simp [h2, State.settle_ok]⟩)

end Sys2Proof.Machine
end

