-- ==== Sys2Proof/Laws/Script.lean ====
section
/-! SUPPORT. What a turn does while a host performs a script, and that a `WAIT` polls until `BUSY` is 0 (spec/30_encoding.md
R90, R91). -/

namespace Sys2Proof.Machine

/-! ## `State.facing` -/

@[simp] theorem State.facing_ce (s : State) (e : Event) : (s.facing e).ce = s.ce := rfl
@[simp] theorem State.facing_events (s : State) (e : Event) : (s.facing e).env.events = e :: s.env.events := rfl
@[simp] theorem State.facing_srcAnswers (s : State) (e : Event) : (s.facing e).env.srcAnswers = s.env.srcAnswers := rfl
@[simp] theorem State.facing_srcSilent (s : State) (e : Event) : (s.facing e).env.srcSilent = s.env.srcSilent := rfl
@[simp] theorem State.facing_hostAnswers (s : State) (e : Event) : (s.facing e).env.hostAnswers = s.env.hostAnswers := rfl
@[simp] theorem State.facing_srcRequests (s : State) (e : Event) : (s.facing e).env.srcRequests = s.env.srcRequests := rfl
@[simp] theorem State.facing_draws (s : State) (e : Event) : (s.facing e).env.draws = s.env.draws := rfl
@[simp] theorem State.facing_turn (s : State) (e : Event) : (s.facing e).turn = e := rfl

/-! ## One host turn -/

/-- A host turn runs its word on the state with fresh free values; what was to come before it is still to come. -/
theorem step_facing_host (s : State) (w : BitVec 17) :
    step (s.facing (.host w)) = exec (decodeHost w) { s with env := { s.env with draws := s.env.draws + 1 } } := rfl

/-- The state after a poll of `STATUS`. -/
def State.polled (s : State) : State :=
  { s with env := { s.env with hostAnswers := s.ce.status :: s.env.hostAnswers, draws := s.env.draws + 1 } }

@[simp] theorem State.polled_ce (s : State) : s.polled.ce = s.ce := rfl
@[simp] theorem State.polled_hostAnswers (s : State) :
    s.polled.env.hostAnswers = s.ce.status :: s.env.hostAnswers := rfl

theorem step_facing_poll (s : State) : step (s.facing (.host Script.Line.wait.next)) = .next s.polled := rfl

/-- A poll is the last one exactly when the block is not busy. -/
theorem waitOver_status (c : CE) : Script.waitOver c.status = !c.busy := by
  have h := (statusBits false c.ldg c.ign c.fault c.done c.busy c.srdy c.cvalid).2.2.1
  unfold Script.waitOver
  exact congrArg (!·) h

theorem Script.Line.left_wait (s : State) :
    Script.Line.wait.left s.polled.env.hostAnswers = if s.ce.busy then [.wait] else [] := by
  simp only [Script.Line.left, State.polled_hostAnswers, waitOver_status]
  cases s.ce.busy <;> rfl

/-! ## A whole script -/

/-- While the block is busy a `WAIT` is repeated. -/
theorem perform_wait_busy {s : State} (h : s.ce.busy = true) (as : List Agent) (ls : List Script.Line) :
    perform (.host :: as) (.wait :: ls) s = perform as (.wait :: ls) s.polled := by
  simp only [perform, step_facing_poll, Script.Line.left_wait, h, if_true, List.singleton_append]

/-- A poll that finds the block not busy ends a `WAIT`. -/
theorem perform_wait_over {s : State} (h : s.ce.busy = false) (as : List Agent) (ls : List Script.Line) :
    perform (.host :: as) (.wait :: ls) s = perform as ls s.polled := by
  simp only [perform, step_facing_poll, Script.Line.left_wait, h, Bool.false_eq_true, if_false, List.nil_append]

/-- A transaction is issued once. -/
theorem perform_word {s t : State} {w : BitVec 17} (h : step (s.facing (.host w)) = .next t) (as : List Agent)
    (ls : List Script.Line) : perform (.host :: as) (.word w :: ls) s = perform as ls t := by
  simp [perform, Script.Line.next, Script.Line.left, h]

/-- A micro-step between two transactions leaves the script where it is. -/
theorem perform_sequencer {s t : State} (h : step (s.facing .seq) = .next t) (as : List Agent)
    (ls : List Script.Line) : perform (.sequencer :: as) ls s = perform as ls t := by
  simp [perform, h]

/-- An order of moves can be cut anywhere. -/
theorem perform_append (as bs : List Agent) (ls : List Script.Line) (s : State) :
    perform (as ++ bs) ls s = (perform as ls s).bind fun r => perform bs r.1 r.2 := by
  induction as generalizing ls s with
  | nil => rfl
  | cons a as ih =>
    cases a with
    | sequencer =>
      simp only [List.cons_append, perform]
      cases step (s.facing .seq) with
      | next t => exact ih ls t
      | fault _ => rfl
      | refused _ => rfl
    | host =>
      cases ls with
      | nil => exact ih [] s
      | cons l ls =>
        simp only [List.cons_append, perform]
        cases step (s.facing (.host l.next)) with
        | next t => exact ih _ t
        | fault _ => rfl
        | refused _ => rfl

/-- On a block that is not busy a `WAIT` is one poll. -/
theorem Performs.wait {s : State} (h : s.ce.busy = false) : Performs [.wait] s s.polled :=
  ⟨[.host], by rw [perform_wait_over h]; rfl⟩

end Sys2Proof.Machine
end

