-- ==== Sys2Proof/Tests/Slice0.lean ====
section
/-! SUPPORT. Tests with results taken from the spec (spec/95_test_vectors.md V1 to V23 and the examples of the rules), and for
every statement with premises states and operands that meet them. -/

namespace Sys2Proof.Tests

open Sys2Proof.Machine

/-! ## Small states -/

/-- The known coefficients (V1, V23). -/
def known : Vector Half 11 :=
  #v[0x0198#16, 0xFFB8#16, 0xC7D1#16, 0x7FE5#16, 0x7FF5#16, 0x5A71#16, 0x182E#16, 0x0004#16, 0x8000#16, 0xDDF9#16, 0x0B34#16]

/-- The block after a load of the known coefficients. -/
def loadedCE : CE := { CE.reset with coef := some known, cvalid := true }

/-- The known sample, `UT = 27898` and `UP = 23843` (V1). -/
def knownSample : Vector (Option Byte) 6 :=
  #v[some 0x6C#8, some 0xFA#8, some 0x00#8, some 0x00#8, some 0x5D#8, some 0x23#8]

/-- The block with the known sample written after the load. -/
def sampledCE : CE := { loadedCE with sample := knownSample, sw := #v[true, true, true, true, true, true] }

/-- The value, if step `n` is after the steps that write it. -/
def since (n k : Nat) (v : Int) : Option W32 := if k < n then some (BitVec.ofInt 32 v) else none

/-- The block in the run V1 with step `n` next. -/
def runCE (n : Nat) : CE :=
  { loadedCE with
    sample := knownSample
    mode := .computing
    step := BitVec.ofNat 5 n
    x1 := since n 1 (if n ≤ 6 then 4743 else if n ≤ 10 then 1 else if n ≤ 16 then 2809 else 3454)
    x2 := since n 2 (if n ≤ 7 then -2343 else if n ≤ 11 then 56 else if n ≤ 17 then 59 else -7859)
    x3 := since n 8 (if n ≤ 12 then 57 else 717)
    b3 := since n 9 422
    b4 := since n 13 33457
    b5 := since n 3 2400
    b6 := since n 5 (-1600)
    b7 := since n 14 1171050000
    p := since n 15 70003
    temp := since n 4 150 }

/-- A state around a block, with nothing to come. -/
def around (c : CE) : State := { ce := c, env := Env.initial }

/-- A state around a block, with one event to come. -/
def facing (c : CE) (e : Event) : State := { ce := c, env := { Env.initial with events := [e] } }

/-- The block while loading, with read `k` next and the bytes of the reads before it kept. -/
def loadCE (k : Nat) : CE :=
  { CE.reset with
    mode := .loading
    ldcnt := BitVec.ofNat 5 k
    ldbuf := Vector.ofFn fun j => if j.val < k then some (BitVec.ofNat 8 j.val) else none }

/-- Loading, with read `k` next and one answer listed. -/
def loadAt (k : Nat) (r : BitVec 9) : State := { ce := loadCE k, env := { Env.initial with srcAnswers := [some r] } }

/-- Loading, with read `k` next that the source never answers, and one answer listed for the next load. -/
def hangAt (k : Nat) (es : List Event) : State :=
  { ce := loadCE k, env := { Env.initial with events := es, srcAnswers := [none, some 0x001#9] } }

/-- The block after the division by zero of program P3. -/
def faultCE : CE := { loadedCE with fault := true, finfo := 0x42#8 }

/-- The block after the run V1. -/
def doneCE : CE :=
  { runCE 18 with mode := .idle, step := 0#5, done := true, press := some 69964#32 }

/-- The outcome is a next state of which the property holds. -/
def nextIs (o : Host.Outcome State Fault Refusal) (p : State → Bool) : Bool :=
  match o with
  | .next t => p t
  | .fault _ => false
  | .refused _ => false

/-! ## Well-formedness refuses an ill-formed term (R101, R106, R85) -/

theorem test_smoke_write_of_cmd : ¬ WellFormed (.wr 0x17#8 0x00#8) := by decide
theorem test_smoke_reserved_below_three : ¬ WellFormed (.cmdReserved 0x02#8) := by decide
theorem test_smoke_load_step_22 : ¬ WellFormed (.ldstep 22#5) := by decide

/-! ## Decoding of words written out from the spec (R81 to R85, V21) -/

theorem test_word_rd : decode (.host 0b0_00011110_00000000#17) = .ok (.rd 0x1E#8) := by decide
theorem test_word_wr : decode (.host 0b1_00010110_00000011#17) = .ok (.wr 0x16#8 0x03#8) := by decide
theorem test_word_nop : decode (.host 0b1_00010111_00000000#17) = .ok .nop := by decide
theorem test_word_load : decode (.host 0b1_00010111_00000001#17) = .ok .load := by decide
theorem test_word_compensate : decode (.host 0b1_00010111_00000010#17) = .ok .compensate := by decide
theorem test_word_reserved : decode (.host 0b1_00010111_00000011#17) = .ok (.cmdReserved 0x03#8) := by decide
theorem test_word_ldstep : decode (.load 0b00101#5) = .ok (.ldstep 5#5) := by decide
theorem test_word_u1 : decode (.pipe 0b00001#5) = .ok .u1 := by decide
theorem test_word_u2 : decode (.pipe 0b00010#5) = .ok .u2 := by decide
theorem test_word_u3 : decode (.pipe 0b00011#5) = .ok .u3 := by decide
theorem test_word_u4 : decode (.pipe 0b00100#5) = .ok .u4 := by decide
theorem test_word_u5 : decode (.pipe 0b00101#5) = .ok .u5 := by decide
theorem test_word_u6 : decode (.pipe 0b00110#5) = .ok .u6 := by decide
theorem test_word_u7 : decode (.pipe 0b00111#5) = .ok .u7 := by decide
theorem test_word_u8 : decode (.pipe 0b01000#5) = .ok .u8 := by decide
theorem test_word_u9 : decode (.pipe 0b01001#5) = .ok .u9 := by decide
theorem test_word_u10 : decode (.pipe 0b01010#5) = .ok .u10 := by decide
theorem test_word_u11 : decode (.pipe 0b01011#5) = .ok .u11 := by decide
theorem test_word_u12 : decode (.pipe 0b01100#5) = .ok .u12 := by decide
theorem test_word_u13 : decode (.pipe 0b01101#5) = .ok .u13 := by decide
theorem test_word_u14 : decode (.pipe 0b01110#5) = .ok .u14 := by decide
theorem test_word_u15 : decode (.pipe 0b01111#5) = .ok .u15 := by decide
theorem test_word_u16 : decode (.pipe 0b10000#5) = .ok .u16 := by decide
theorem test_word_u17 : decode (.pipe 0b10001#5) = .ok .u17 := by decide
theorem test_word_u18 : decode (.pipe 0b10010#5) = .ok .u18 := by decide
theorem test_word_pipe_0 : decode (.pipe 0b00000#5) = .error (.noPipelineStep 0#5) := by decide
theorem test_word_pipe_19 : decode (.pipe 0b10011#5) = .error (.noPipelineStep 19#5) := by decide
theorem test_word_load_22 : decode (.load 0b10110#5) = .error (.noLoadStep 22#5) := by decide

/-! ## One transition on a small state -/

/-- V21: `RD 0x28` after reset answers 0x11. -/
theorem test_rd_tconv : nextIs (exec (.rd 0x28#8) State.reset) (fun t => t.env.hostAnswers = [0x11#8]) = true := by decide
/-- V1, R38: the last byte of `X2 = 0xFFFFE14D` is at 0x37. -/
theorem test_rd_window : nextIs (exec (.rd 0x37#8) (around doneCE)) (fun t => t.env.hostAnswers = [0x4D#8]) = true := by decide
/-- V21: `WR 0x18, 0x6C` is stored and `SRDY` stays 0. -/
theorem test_wr_sample : nextIs (exec (.wr 0x18#8 0x6C#8) (around loadedCE))
    (fun t => t.ce.sample[0] = some 0x6C#8 && t.ce.sw[0] && t.ce.status = 0x01#8) = true := by decide
/-- V21: `WR 0x1E, 0xFF` is ignored. -/
theorem test_wr_read_only : nextIs (exec (.wr 0x1E#8 0xFF#8) State.reset) (fun t => t.ce.status = 0x20#8) = true := by decide
/-- V21: `NOP`. -/
theorem test_nop : nextIs (exec .nop State.reset) (fun t => t.ce.status = 0x00#8) = true := by decide
/-- V21: `LOAD` accepted. -/
theorem test_load : nextIs (exec .load State.reset) (fun t => t.ce.status = 0x44#8) = true := by decide
/-- V21: `LOAD` with `CVALID = 1` is ignored. -/
theorem test_load_again : nextIs (exec .load (around loadedCE)) (fun t => t.ce.status = 0x21#8) = true := by decide
/-- P1, transaction 19: `STATUS` reads 0x05 after it. -/
theorem test_compensate : nextIs (exec .compensate (around sampledCE))
    (fun t => t.ce.status = 0x05#8 && t.ce.step = 1#5) = true := by decide
/-- V21: `COMPENSATE` without coefficients is ignored. -/
theorem test_compensate_early : nextIs (exec .compensate State.reset) (fun t => t.ce.status = 0x20#8) = true := by decide
/-- V21: reserved command byte 0x03. -/
theorem test_reserved : nextIs (exec (.cmdReserved 0x03#8) State.reset) (fun t => t.ce.status = 0x20#8) = true := by decide
/-- R104: the last read commits, and `COEF[10]` is bytes 20 and 21. -/
theorem test_ldstep_commit : nextIs (exec (.ldstep 21#5) (loadAt 21 0x034#9))
    (fun t => t.ce.status = 0x01#8 && t.ce.coef.map (fun f => f[10]) = some 0x1434#16) = true := by decide
/-- P4: read 5 fails. -/
theorem test_ldstep_fail : nextIs (exec (.ldstep 5#5) (loadAt 5 0x100#9))
    (fun t => t.ce.finfo = 0x25#8 && t.ce.status = 0x10#8) = true := by decide
/-- V1, step by step. -/
theorem test_u1 : nextIs (exec .u1 (around (runCE 1))) (fun t => t.ce.x1 = some 4743#32 && t.ce.step = 2#5) = true := by decide
theorem test_u2 : nextIs (exec .u2 (around (runCE 2))) (fun t => t.ce.x2 = some (BitVec.ofInt 32 (-2343))) = true := by decide
theorem test_u3 : nextIs (exec .u3 (around (runCE 3))) (fun t => t.ce.b5 = some 2400#32) = true := by decide
theorem test_u4 : nextIs (exec .u4 (around (runCE 4))) (fun t => t.ce.temp = some 150#32) = true := by decide
theorem test_u5 : nextIs (exec .u5 (around (runCE 5))) (fun t => t.ce.b6 = some (BitVec.ofInt 32 (-1600))) = true := by decide
theorem test_u6 : nextIs (exec .u6 (around (runCE 6))) (fun t => t.ce.x1 = some 1#32) = true := by decide
theorem test_u7 : nextIs (exec .u7 (around (runCE 7))) (fun t => t.ce.x2 = some 56#32) = true := by decide
theorem test_u8 : nextIs (exec .u8 (around (runCE 8))) (fun t => t.ce.x3 = some 57#32) = true := by decide
theorem test_u9 : nextIs (exec .u9 (around (runCE 9))) (fun t => t.ce.b3 = some 422#32) = true := by decide
/-- V6: level 3. -/
theorem test_u9_oss3 : nextIs (exec .u9 (around { runCE 9 with ossIn := 0x03#8 })) (fun t => t.ce.b3 = some 3378#32) = true := by
  decide
theorem test_u10 : nextIs (exec .u10 (around (runCE 10))) (fun t => t.ce.x1 = some 2809#32) = true := by decide
theorem test_u11 : nextIs (exec .u11 (around (runCE 11))) (fun t => t.ce.x2 = some 59#32) = true := by decide
theorem test_u12 : nextIs (exec .u12 (around (runCE 12))) (fun t => t.ce.x3 = some 717#32) = true := by decide
theorem test_u13 : nextIs (exec .u13 (around (runCE 13))) (fun t => t.ce.b4 = some 33457#32) = true := by decide
/-- V20 (c): the cast of a negative sum. -/
theorem test_u13_negative : nextIs (exec .u13 (around { runCE 13 with x3 := some (BitVec.ofInt 32 (-46031)) }))
    (fun t => t.ce.b4 = some 117819#32) = true := by decide
theorem test_u14 : nextIs (exec .u14 (around (runCE 14))) (fun t => t.ce.b7 = some 0x45CCCE10#32) = true := by decide
theorem test_u15_low : nextIs (exec .u15 (around (runCE 15))) (fun t => t.ce.p = some 70003#32) = true := by decide
/-- V9: the high path. -/
theorem test_u15_high : nextIs (exec .u15 (around { runCE 15 with b7 := some 2147500000#32 }))
    (fun t => t.ce.p = some 128372#32) = true := by decide
theorem test_u16 : nextIs (exec .u16 (around (runCE 16))) (fun t => t.ce.x1 = some 3454#32) = true := by decide
/-- R151: the least `p` that faults leaves the first assignment made, `841 × 841`. -/
theorem test_u16_second_half : nextIs (exec .u16 (around { runCE 16 with p := some 215296#32 }))
    (fun t => t.ce.finfo = 0x70#8 && t.ce.x1 = some 707281#32) = true := by decide
theorem test_u17 : nextIs (exec .u17 (around (runCE 17))) (fun t => t.ce.x2 = some (BitVec.ofInt 32 (-7859))) = true := by decide
theorem test_u18 : nextIs (exec .u18 (around (runCE 18)))
    (fun t => t.ce.press = some 69964#32 && t.ce.status = 0x09#8 && t.ce.step = 0#5) = true := by decide
/-- R130: `UT = 65535`, `A6 = 0`, `A5 = 32769` overflows. -/
theorem test_u1_overflow :
    nextIs (exec .u1 (around { runCE 1 with coef := some ((known.set 4 0x8001#16).set 5 0#16),
                                            sample := (knownSample.set 0 (some 0xFF#8)).set 1 (some 0xFF#8) }))
      (fun t => t.ce.finfo = 0x61#8 && t.ce.status = 0x11#8 && t.ce.x1 = none) = true := by decide
/-- R131, P3: `X1 + MD = 0`. -/
theorem test_u2_div0 : nextIs (exec .u2 (around { runCE 2 with x1 := some (BitVec.ofInt 32 (-2868)) }))
    (fun t => t.ce.finfo = 0x42#8 && t.ce.x2 = none) = true := by decide
/-- R6: `asr32(−7, 2) = −2`, `sdiv32(−7, 2) = −3`; IM4: the other rounding gives −4. -/
theorem test_shift_and_division :
    asr32 (BitVec.ofInt 32 (-7)) 2 = BitVec.ofInt 32 (-2) ∧ sdiv32 (BitVec.ofInt 32 (-7)) 2#32 = .ok (BitVec.ofInt 32 (-3)) ∧
      sdiv32With .floor (BitVec.ofInt 32 (-7)) 2#32 = .ok (BitVec.ofInt 32 (-4)) := by decide
/-- R200: reset leaves the faulted state. -/
theorem test_reset_step : nextIs (step (facing faultCE .reset)) (fun t => t.ce = CE.reset) = true := by decide
/-- R209, R200, R103: a load that hangs on read 5 stays busy, and after a reset the next answer is there for a new load. -/
theorem test_hang : nextIs (step (hangAt 5 [])) (fun t => t.ce.status = 0x44#8 && t.env.srcAnswers = [none, some 0x001#9]) = true := by
  decide
theorem test_hang_reset : nextIs (step (hangAt 5 [.reset])) (fun t => t.ce = CE.reset && t.env.srcAnswers = [some 0x001#9]) = true := by
  decide
/-- R91, P1: a `WAIT` polls 0x44 while the load's last read is to come, is repeated, and ends with 0x01. -/
theorem test_wait_repeats : (perform [.host] [.wait] (loadAt 21 0x034#9)).map (·.1) = some [.wait] := by decide
theorem test_wait_ends : (perform [.host, .sequencer, .host] [.wait] (loadAt 21 0x034#9)).map
    (fun r => (r.1, r.2.env.hostAnswers)) = some ([], [0x01#8, 0x44#8]) := by decide
/-- R174, R135, V1: the triple of the known vector. -/
theorem test_reading : celsius 150#32 = 15 ∧ pascal 69964#32 = 69964 :=
  ⟨by rw [celsius, show (150#32 : W32).toInt = 150 by decide]; norm_num, by decide⟩
/-- withFetchWord places the word where step takes it. -/
theorem test_fetch_word_host : State.reset.withFetchWord 24 0x11701 = facing CE.reset (.host 0x11701#17) := by decide
theorem test_fetch_word_pipe :
    (State.reset.withFetchWord 8 0x12).fetch = some (.pipe 18#5) ∧ decodeTableWord 8 0x12 = some .u18 := by decide
theorem test_fetch_word_load :
    (State.reset.withFetchWord 8 0x00).fetch = some (.load 0#5) ∧ decodeTableWord 8 0x00 = some (.ldstep 0#5) := by decide

/-! ## Premises met: encoding, primitives, operands -/

theorem witness_DecodingUndoesEncoding :
    WellFormed (.rd 0xFF#8) ∧ WellFormed (.wr 0x18#8 0x6C#8) ∧ WellFormed (.cmdReserved 0x03#8) ∧
      WellFormed (.cmdReserved 0xFF#8) ∧ WellFormed (.ldstep 0#5) ∧ WellFormed (.ldstep 21#5) ∧ WellFormed .u18 := by decide

theorem witness_EveryHostWordIsOneInstruction_read : (0x01700#17).getLsbD 16 = false := by decide

theorem witness_EveryHostWordIsOneInstruction_write :
    (0x11600#17).getLsbD 16 = true ∧ (0x11600#17).extractLsb' 8 8 ≠ 0x17#8 ∧
      (0x11800#17).getLsbD 16 = true ∧ (0x11800#17).extractLsb' 8 8 ≠ 0x17#8 := by decide

theorem witness_EveryHostWordIsOneInstruction_reserved :
    0x11703 ≤ (0x11703#17).toNat ∧ (0x11703#17).toNat ≤ 0x117FF ∧ 0x11703 ≤ (0x117FF#17).toNat ∧
      (0x117FF#17).toNat ≤ 0x117FF := by decide

theorem witness_MicroStepsAreSelectedByNumber :
    (1 ≤ (1#5).toNat ∧ (18#5).toNat ≤ 18) ∧ ((0#5).toNat = 0 ∧ 19 ≤ (19#5).toNat ∧ 19 ≤ (31#5).toNat) ∧
      (21#5).toNat ≤ 21 ∧ 22 ≤ (22#5).toNat := by decide

/-- The largest sum that fits, the smallest that does not, and divisors of both kinds. -/
theorem witness_SignedPrimitivesAreExactOrFault :
    let a : W32 := 2147483647#32
    a.toInt + (0#32 : W32).toInt ≤ 2147483647 ∧ ¬ (a.toInt + (1#32 : W32).toInt ≤ 2147483647) ∧
      (0#32 : W32).toInt = 0 ∧ (BitVec.ofInt 32 (-1)).toInt ≠ 0 ∧ 31 ≤ 31 := by decide

/-- The only quotient out of range, and its neighbour that fits. -/
theorem witness_SignedPrimitivesAreExactOrFault_quotient :
    let a : W32 := BitVec.ofInt 32 (-2147483648)
    ¬ (a.toInt.sign * (-1 : Int).sign * (a.toInt.natAbs / (-1 : Int).natAbs : Nat) ≤ 2147483647) ∧
      a.toInt.sign * (1 : Int).sign * (a.toInt.natAbs / (1 : Int).natAbs : Nat) = -2147483648 := by decide

theorem witness_UnsignedPrimitivesWrap : (0#32 : W32).toNat = 0 ∧ (1#32 : W32).toNat ≠ 0 ∧ 31 ≤ 31 := by decide

theorem witness_OperandsAreAssembledAndWidened :
    (2147483648#32).toNat ≥ 2147483648 ∧ (2147483647#32).toNat < 2147483648 ∧ (around (runCE 1)).ce.coef = some known ∧
      (around (runCE 1)).ce.sample =
        #v[some 0x6C#8, some 0xFA#8, some 0x00#8, some 0x00#8, some 0x5D#8, some 0x23#8] := by decide

theorem witness_OversamplingTable :
    4 ≤ (0x04#8).toNat ∧ 4 ≤ (0xFF#8).toNat ∧ ossEff 0x04#8 = 0 ∧ ossEff 0x01#8 = 1 ∧ ossEff 0x02#8 = 2 ∧
      ossEff 0x03#8 = 3 := by decide

/-! ## Premises met: the step -/

theorem witness_StepRunsDecodedInstruction_host :
    (facing CE.reset (.host 0x11701#17)).fetch = some (.host 0x11701#17) ∧ decode (.host 0x11701#17) = .ok .load := by decide

theorem witness_StepRunsDecodedInstruction_micro :
    (around (runCE 18)).fetch = some (.pipe 18#5) ∧ decode (.pipe 18#5) = .ok .u18 ∧
      (around (loadCE 21)).fetch = some (.load 21#5) ∧ decode (.load 21#5) = .ok (.ldstep 21#5) := by decide

theorem witness_FetchFollowsTurnAndMode :
    (facing CE.reset (.host 0x01E00#17)).env.events = [.host 0x01E00#17] ∧ (around (runCE 1)).env.events = [] ∧
      (facing (loadCE 0) .seq).env.events = [.seq] ∧ (runCE 1).mode = .computing ∧ (loadCE 0).mode = .loading ∧
      (around (loadCE 0)).env.srcSilent = false ∧
      ({ ce := loadCE 0, env := { Env.initial with srcSilent := true } } : State).env.srcSilent = true ∧
      (around (loadCE 0)).env.srcAnswers = [] ∧ (loadAt 0 0x001#9).env.srcAnswers = some 0x001#9 :: [] ∧
      (hangAt 5 []).env.srcAnswers = none :: [some 0x001#9] ∧ (hangAt 5 []).ce.mode = .loading ∧
      CE.reset.mode = .idle := by decide

theorem witness_NothingHappensWithoutAnEnabledAgent :
    State.reset.turn = .seq ∧ State.reset.fetch = none ∧
      ({ ce := loadCE 3, env := { Env.initial with srcSilent := true } } : State).turn = .seq ∧
      ({ ce := loadCE 3, env := { Env.initial with srcSilent := true } } : State).fetch = none ∧
      (hangAt 5 []).fetch = none := by decide

/-- A load of which five reads were answered and the sixth never is, then a reset. -/
theorem witness_NothingHappensWithoutAnEnabledAgent_hang :
    (hangAt 5 []).ce.mode = .loading ∧ (hangAt 5 []).env.srcAnswers = none :: [some 0x001#9] ∧ (hangAt 5 []).turn = .seq ∧
      (hangAt 5 [.reset]).ce.mode = .loading ∧ (hangAt 5 [.reset]).turn = .reset := by decide

theorem witness_ResetPutsEveryPieceAtItsResetValue :
    (facing faultCE .reset).turn = .reset ∧ (facing (runCE 9) .reset).turn = .reset := by decide

/-! ## Premises met: host transactions and commands -/

theorem witness_ReadAnswersByTheRegisterMap :
    (around doneCE).ce.cvalid = true ∧ (around doneCE).ce.coef = some known ∧ (0x14#8).toNat = 2 * 10 ∧
      (0x15#8).toNat = 2 * 10 + 1 ∧ (0x1D#8).toNat = 0x18 + 5 ∧ (around doneCE).ce.sample[5] = some 0x23#8 ∧
      (0x23#8).toNat = 0x20 + 3 ∧ (around doneCE).ce.temp = some 150#32 ∧ (0x24#8).toNat = 0x24 + 0 ∧
      (around doneCE).ce.press = some 69964#32 ∧ (0x53#8).toNat = 0x30 + 4 * 8 + 3 ∧
      (around doneCE).ce.p = some 70003#32 ∧ 0x2C ≤ (0x2C#8).toNat ∧ (0x2F#8).toNat ≤ 0x2F ∧ 0x54 ≤ (0x54#8).toNat := by decide

theorem witness_WriteStoresInputsOrIsIgnored :
    (around faultCE).ce.fault = true ∧ (around (runCE 1)).ce.busy = true ∧ (around loadedCE).ce.fault = false ∧
      (around loadedCE).ce.busy = false ∧ (0x1D#8).toNat = 0x18 + 5 ∧ (0x18#8).toNat = 0x18 + 0 ∧
      (0x15#8).toNat < 0x16 ∧ 0x1E ≤ (0x1E#8).toNat := by decide

theorem witness_ReadAfterAcceptedWrite :
    (around loadedCE).ce.fault = false ∧ (around loadedCE).ce.busy = false ∧
      nextIs (exec (.wr 0x18#8 0x6C#8) (around loadedCE)) (fun _ => true) = true ∧ (0x1D#8 : Byte) ≠ 0x18#8 := by decide

/-- The other byte at each end of its range, holding a value, and `OSS_IN`. -/
theorem witness_ReadAfterAcceptedWrite_other :
    (around sampledCE).ce.fault = false ∧ (around sampledCE).ce.busy = false ∧ (0x1D#8).toNat = 0x18 + 5 ∧
      (around sampledCE).ce.sample[5].isSome = true ∧ (0x18#8).toNat = 0x18 + 0 ∧
      (around sampledCE).ce.sample[0].isSome = true ∧ (0x16#8 : Byte) ≠ 0x18#8 ∧ (0x18#8 : Byte) ≠ 0x16#8 := by decide

theorem witness_NopDoesNothingAndReservedSetsIgn : 3 ≤ (0x03#8).toNat ∧ 3 ≤ (0xFF#8).toNat := by decide

theorem witness_LoadStartsALoadOrIsIgnored :
    (State.reset.ce.fault = false ∧ State.reset.ce.busy = false ∧ State.reset.ce.cvalid = false) ∧
      ¬ ((around loadedCE).ce.fault = false ∧ (around loadedCE).ce.busy = false ∧ (around loadedCE).ce.cvalid = false) := by
  decide

theorem witness_CompensateStartsARunOrIsIgnored :
    ((around sampledCE).ce.fault = false ∧ (around sampledCE).ce.busy = false ∧ (around sampledCE).ce.cvalid = true ∧
        (∀ k : Fin 6, (around sampledCE).ce.sw[k] = true)) ∧
      ¬ (∀ k : Fin 6, (around loadedCE).ce.sw[k] = true) := by decide

theorem witness_LoadStepReadsOneByte_fails :
    (21#5).toNat ≤ 21 ∧ (loadAt 21 0x100#9).env.srcAnswers = [some 0x100#9] ∧ (0x100#9).getLsbD 8 = true := by decide

theorem witness_LoadStepReadsOneByte_keeps :
    (20#5).toNat < 21 ∧ (loadAt 20 0x0FF#9).env.srcAnswers = [some 0x0FF#9] ∧ (0x0FF#9).getLsbD 8 = false := by decide

theorem witness_LoadStepReadsOneByte_commits :
    (loadAt 21 0x034#9).env.srcAnswers = [some 0x034#9] ∧ (0x034#9).getLsbD 8 = false ∧
      ((loadAt 21 0x034#9).ce.ldbuf.setIfInBounds 21 (some ((0x034#9).extractLsb' 0 8)))[20] = some 20#8 ∧
      ((loadAt 21 0x034#9).ce.ldbuf.setIfInBounds 21 (some ((0x034#9).extractLsb' 0 8)))[21] = some 0x34#8 := by decide

theorem witness_LoadStepCompletesForAnyAnswer :
    (0#5).toNat ≤ 21 ∧ (20#5).toNat < 21 ∧ (21#5).toNat = 21 ∧
      ((loadAt 21 0x1FF#9).srcAnswer (srcAddr 21#5)).getLsbD 8 = true ∧
      ((loadAt 21 0x034#9).srcAnswer (srcAddr 21#5)).getLsbD 8 = false := by decide

/-! ## Premises met: pipeline steps, each clause at its boundary -/

/-- Step 1 at the greatest `A5` that cannot overflow, and overflowing one above it. -/
theorem witness_Step1 :
    let s := around { runCE 1 with coef := some ((known.set 4 0x8000#16).set 5 0#16),
                                   sample := (knownSample.set 0 (some 0xFF#8)).set 1 (some 0xFF#8) }
    let t := around { runCE 1 with coef := some ((known.set 4 0x8001#16).set 5 0#16),
                                   sample := (knownSample.set 0 (some 0xFF#8)).set 1 (some 0xFF#8) }
    s.a5.toInt ≤ 32768 ∧ (s.ut.toInt - s.a6.toInt) * s.a5.toInt ≤ 2147483647 ∧
      -2147483648 ≤ (s.ut.toInt - s.a6.toInt) * s.a5.toInt ∧
      ¬ ((t.ut.toInt - t.a6.toInt) * t.a5.toInt ≤ 2147483647) := by decide

theorem witness_Step2_divides :
    let s := around (runCE 2)
    (-65536 ≤ s.x1.toInt ∧ s.x1.toInt ≤ 65535) ∧ s.x1.toInt + s.md.toInt ≠ 0 ∧
      -2147483648 ≤ s.x1.toInt + s.md.toInt ∧ s.x1.toInt + s.md.toInt ≤ 2147483647 := by decide

theorem witness_Step2_faults :
    let s := around { runCE 2 with x1 := some (BitVec.ofInt 32 (-2868)) }
    let t := around { runCE 2 with x1 := some 2147483647#32 }
    s.x1.toInt + s.md.toInt = 0 ∧ ¬ (t.x1.toInt + t.md.toInt ≤ 2147483647) := by decide

theorem witness_Steps3And8 :
    let s := around { runCE 3 with x1 := some 65535#32, x2 := some 67108864#32 }
    let s' := around { runCE 8 with x1 := some 1048576#32, x2 := some 741440#32 }
    let t := around { runCE 3 with x1 := some 2147483647#32, x2 := some 1#32 }
    (-65536 ≤ s.x1.toInt ∧ s.x1.toInt ≤ 65535 ∧ -67108864 ≤ s.x2.toInt ∧ s.x2.toInt ≤ 67108864) ∧
      (s'.x1.toInt.natAbs ≤ 1048576 ∧ s'.x2.toInt.natAbs ≤ 741440) ∧
      (-2147483648 ≤ s.x1.toInt + s.x2.toInt ∧ s.x1.toInt + s.x2.toInt ≤ 2147483647) ∧
      ¬ (t.x1.toInt + t.x2.toInt ≤ 2147483647) := by decide

theorem witness_Step4 :
    (around { runCE 4 with b5 := some 2147483639#32 }).b5.toInt ≤ 2147483639 ∧
      2147483639 < (around { runCE 4 with b5 := some 2147483640#32 }).b5.toInt := by decide

theorem witness_Step5 :
    -2147479648 ≤ (around { runCE 5 with b5 := some (BitVec.ofInt 32 (-2147479648)) }).b5.toInt ∧
      (around { runCE 5 with b5 := some (BitVec.ofInt 32 (-2147479649)) }).b5.toInt < -2147479648 := by decide

theorem witness_Step6_square :
    46341 ≤ (around { runCE 6 with b6 := some (BitVec.ofInt 32 (-46341)) }).b6.toInt.natAbs ∧
      (around { runCE 6 with b6 := some (BitVec.ofInt 32 (-46340)) }).b6.toInt.natAbs ≤ 46340 := by decide

theorem witness_Step6_product :
    let s := around { runCE 6 with b6 := some 46340#32, coef := some (known.set 7 0x1000#16) }
    let t := around { runCE 6 with b6 := some 46340#32, coef := some (known.set 7 0x1001#16) }
    s.cb2.toInt.natAbs ≤ 4096 ∧ s.cb2.toInt * ((s.b6.toInt * s.b6.toInt) / 4096) ≤ 2147483647 ∧
      -2147483648 ≤ s.cb2.toInt * ((s.b6.toInt * s.b6.toInt) / 4096) ∧
      ¬ (t.cb2.toInt * ((t.b6.toInt * t.b6.toInt) / 4096) ≤ 2147483647) := by decide

theorem witness_Steps7And10 :
    let s := around { runCE 7 with b6 := some 46340#32 }
    let t := around { runCE 7 with b6 := some (BitVec.ofInt 32 (-2147483648)) }
    s.b6.toInt.natAbs ≤ 46340 ∧ -2147483648 ≤ s.a2.toInt * s.b6.toInt ∧ s.a2.toInt * s.b6.toInt ≤ 2147483647 ∧
      -2147483648 ≤ s.a3.toInt * s.b6.toInt ∧ s.a3.toInt * s.b6.toInt ≤ 2147483647 ∧
      ¬ (t.a2.toInt * t.b6.toInt ≤ 2147483647) ∧ ¬ (t.a3.toInt * t.b6.toInt ≤ 2147483647) := by decide

theorem witness_Step9 :
    let s := around { runCE 9 with x3 := some 1790016#32, ossIn := 0x03#8 }
    let t := around { runCE 9 with x3 := some 2147483647#32 }
    let b := s.a1.toInt * 4 + s.x3.toInt
    s.x3.toInt.natAbs ≤ 1790016 ∧ b ≤ 2147483647 ∧ b * 2 ^ ossEff s.ce.ossIn + 2 ≤ 2147483647 ∧ 0 ≤ b ∧
      ¬ (t.a1.toInt * 4 + t.x3.toInt ≤ 2147483647) := by decide

theorem witness_Step11 :
    let s := around { runCE 11 with b6 := some 46340#32, coef := some (known.set 6 0x1000#16) }
    let t := around { runCE 11 with b6 := some 46340#32, coef := some (known.set 6 0x1001#16) }
    s.b6.toInt.natAbs ≤ 46340 ∧ s.cb1.toInt.natAbs ≤ 4096 ∧
      s.cb1.toInt * ((s.b6.toInt * s.b6.toInt) / 4096) ≤ 2147483647 ∧
      -2147483648 ≤ s.cb1.toInt * ((s.b6.toInt * s.b6.toInt) / 4096) ∧
      ¬ (t.cb1.toInt * ((t.b6.toInt * t.b6.toInt) / 4096) ≤ 2147483647) ∧
      46341 ≤ (around { runCE 11 with b6 := some 46341#32 }).b6.toInt.natAbs := by decide

theorem witness_Step12 :
    let s := around { runCE 12 with x1 := some 185360#32, x2 := some 32767#32 }
    let t := around { runCE 12 with x1 := some 2147483646#32, x2 := some 0#32 }
    s.x1.toInt.natAbs ≤ 185360 ∧ -32768 ≤ s.x2.toInt ∧ s.x2.toInt ≤ 32767 ∧ s.x1.toInt + s.x2.toInt + 2 ≤ 2147483647 ∧
      -2147483648 ≤ s.x1.toInt + s.x2.toInt ∧ ¬ (t.x1.toInt + t.x2.toInt + 2 ≤ 2147483647) := by decide

theorem witness_Step13 :
    let least := around { runCE 13 with x3 := some (BitVec.ofInt 32 (-32768)) }
    let most := around { runCE 13 with x3 := some 32768#32 }
    (around { runCE 13 with x3 := some (BitVec.ofInt 32 (-54532)) }).x3.toInt.natAbs ≤ 54532 ∧
      0 ≤ least.x3.toInt + 32768 ∧ most.x3.toInt + 32768 ≤ 65536 ∧
      (around { runCE 13 with x3 := some 2147450879#32 }).x3.toInt + 32768 ≤ 2147483647 ∧
      2147483647 < (around { runCE 13 with x3 := some 2147450880#32 }).x3.toInt + 32768 := by decide

/-- `UP − B3 = 85899`, the last exact one of level 0 (R149). -/
theorem witness_Step14 :
    let s := around { runCE 14 with
      sample := (((knownSample.set 2 (some 0x00#8)).set 3 (some 0x01#8)).set 4 (some 0x51#8)).set 5 (some 0x31#8) }
    s.b3.toInt ≤ s.up.toNat ∧ ((s.up.toNat : Int) - s.b3.toInt) * (50000 / 2 ^ ossEff s.ce.ossIn) ≤ 4294967295 := by decide

theorem witness_Step15 :
    let q := fun s : State => if s.b7.toNat < 2147483648 then 2 * s.b7.toNat / s.b4.toNat
      else (2 * (s.b7.toNat / s.b4.toNat)) % 4294967296
    let big := around { runCE 15 with b7 := some 4294967295#32, b4 := some 3#32 }
    let low := around { runCE 15 with b7 := some 2147483647#32 }
    let high := around { runCE 15 with b7 := some 2147483648#32 }
    (around { runCE 15 with b4 := some 0#32 }).b4.toNat = 0 ∧ (big.b4.toNat ≠ 0 ∧ 2147483648 ≤ q big) ∧
      (low.b4.toNat ≠ 0 ∧ q low < 2147483648) ∧
      (2147483648 ≤ high.b7.toNat ∧ 2 ≤ high.b4.toNat ∧ q high < 2147483648) := by decide

/-- V9. -/
theorem witness_HighPathLosesAtMostOnePascal :
    2147483648 ≤ 2147500000 ∧ 2147500000 < 4294967296 ∧ 2 ≤ 33457 ∧ 2 * 2147500000 / 33457 ≤ 215295 := by decide

theorem witness_Step16 :
    let q := fun v : Int => (around { runCE 16 with p := some (BitVec.ofInt 32 v) }).p.toInt
    (0 ≤ q 0 ∧ 46341 ≤ q 11863296 / 256 ∧ q 11863295 / 256 ≤ 46340 ∧ 215296 ≤ q 215296 ∧ q 215295 ≤ 215295) ∧
      (q (-2147483648) < 0 ∧ (q (-2147483648) / 256) * (q (-2147483648) / 256) > 2147483647) ∧
      (q (-1) < 0 ∧ (q (-1) / 256) * (q (-1) / 256) * 3038 ≤ 2147483647) ∧
      ((q (-215552) / 256) * (q (-215552) / 256) ≤ 2147483647 ∧
        (q (-215552) / 256) * (q (-215552) / 256) * 3038 > 2147483647) := by decide

theorem witness_Step17 :
    let q := fun v : Int => (around { runCE 17 with p := some (BitVec.ofInt 32 v) }).p.toInt
    0 ≤ q 0 ∧ q 215295 ≤ 215295 ∧ -2147483648 ≤ -7357 * q 215295 ∧ -7357 * q 215295 ≤ 2147483647 ∧
      ¬ (-2147483648 ≤ -7357 * q 2147483647) := by decide

theorem witness_Step18 :
    let s := around { runCE 18 with p := some 215295#32, x1 := some 32708#32, x2 := some (BitVec.ofInt 32 (-24169)) }
    let t := around { runCE 18 with p := some 2147483647#32, x1 := some 0#32, x2 := some 0#32 }
    (0 ≤ s.p.toInt ∧ s.p.toInt ≤ 215295 ∧ 0 ≤ s.x1.toInt ∧ s.x1.toInt ≤ 32708 ∧ -24169 ≤ s.x2.toInt ∧ s.x2.toInt ≤ 0) ∧
      (-2147483648 ≤ s.x1.toInt + s.x2.toInt ∧ s.x1.toInt + s.x2.toInt + 3791 ≤ 2147483647 ∧
        s.p.toInt + (s.x1.toInt + s.x2.toInt + 3791) / 16 ≤ 2147483647) ∧
      ¬ (t.p.toInt + (t.x1.toInt + t.x2.toInt + 3791) / 16 ≤ 2147483647) := by decide

theorem witness_CorrectedPressureIsMonotone : (0 : Int) ≤ 0 ∧ (0 : Int) ≤ 215295 ∧ (215295 : Int) ≤ 215295 := by decide

/-! ## Premises met: legal states that are not the reset state -/

theorem legal (c : CE) (h1 : c.FlagsLegal := by decide) (h2 : c.FinfoLegal := by decide) (h3 : c.CoefLegal := by decide)
    (h4 : c.PositionLegal := by decide) (h5 : c.SampleLegal := by decide) (h6 : c.LoadLegal := by decide)
    (h7 : c.WorkLegal := by decide) (h8 : c.ResultLegal := by decide) : c.Inv := ⟨h1, h2, h3, h4, h5, h6, h7, h8⟩

theorem legal_loaded : loadedCE.Inv := legal loadedCE
theorem legal_sampled : sampledCE.Inv := legal sampledCE
theorem legal_run_1 : (runCE 1).Inv := legal (runCE 1)
theorem legal_run_2 : (runCE 2).Inv := legal (runCE 2)
theorem legal_run_18 : (runCE 18).Inv := legal (runCE 18)
theorem legal_load_0 : (loadCE 0).Inv := legal (loadCE 0)
theorem legal_load_21 : (loadCE 21).Inv := legal (loadCE 21)
theorem legal_fault : faultCE.Inv := legal faultCE
theorem legal_done : doneCE.Inv := legal doneCE

theorem witness_EveryStepKeepsLegality :
    (around (runCE 18)).ce.Inv ∧ nextIs (step (around (runCE 18))) (fun t => t.ce.done) = true :=
  ⟨legal_run_18, by decide⟩

theorem witness_LegalMachineNeverStops : (facing faultCE (.host 0x11701#17)).ce.Inv := legal_fault

theorem witness_EveryStepKeepsRegisterBounds :
    (around (runCE 18)).ce.Inv ∧ (around (runCE 18)).ce.Bounds ∧
      nextIs (step (around (runCE 18))) (fun t => t.ce.press = some 69964#32) = true :=
  ⟨legal_run_18, by decide, by decide⟩

/-- The state of program P3 before its fault. -/
def beforeDiv0 : CE := { runCE 2 with x1 := some 0#32, coef := some (known.set 10 0#16) }

theorem legal_beforeDiv0 : beforeDiv0.Inv := legal beforeDiv0

theorem witness_OnlyListedFaultsOccur :
    (around beforeDiv0).ce.Inv ∧ (around beforeDiv0).ce.Bounds ∧ finfoProduced (around beforeDiv0).ce.finfo = true ∧
      nextIs (step (around beforeDiv0)) (fun t => t.ce.finfo = 0x42#8) = true :=
  ⟨legal_beforeDiv0, by decide, by decide, by decide⟩

theorem witness_StatusBits_cvalid :
    (loadAt 21 0x034#9).ce.Inv ∧ (loadAt 21 0x034#9).ce.cvalid = false ∧
      nextIs (step (loadAt 21 0x034#9)) (fun t => t.ce.cvalid && !t.ce.busy && !t.ce.ldg) = true ∧
      (facing loadedCE .reset).ce.Inv ∧ nextIs (step (facing loadedCE .reset)) (fun t => !t.ce.cvalid) = true :=
  ⟨legal_load_21, by decide, by decide, legal_loaded, by decide⟩

/-- Five bytes written, the sixth still to come. -/
def fiveCE : CE := { sampledCE with sw := #v[false, true, true, true, true, true] }

theorem witness_StatusBits_srdy :
    (facing fiveCE (.host 0x1186C#17)).ce.Inv ∧ fiveCE.srdy = false ∧
      nextIs (step (facing fiveCE (.host 0x1186C#17))) (fun t => t.ce.srdy) = true ∧
      (facing sampledCE (.host 0x11702#17)).ce.Inv ∧ sampledCE.srdy = true ∧
      nextIs (step (facing sampledCE (.host 0x11702#17))) (fun t => !t.ce.srdy && t.ce.busy) = true :=
  ⟨legal fiveCE, by decide, by decide, legal_sampled, by decide, by decide⟩

/-- The block of a completed run with a new sample written. -/
def againCE : CE := { doneCE with sw := #v[true, true, true, true, true, true] }

theorem witness_StatusBits_done :
    (around (runCE 18)).ce.done = false ∧ nextIs (step (around (runCE 18))) (fun t => t.ce.done && !t.ce.busy) = true ∧
      againCE.Inv ∧ againCE.done = true ∧ nextIs (step (facing againCE (.host 0x11702#17))) (fun t => !t.ce.done) = true :=
  ⟨by decide, by decide, legal againCE, by decide, by decide⟩

theorem witness_StatusBits_fault :
    beforeDiv0.fault = false ∧ nextIs (step (around beforeDiv0)) (fun t => t.ce.fault) = true ∧
      faultCE.fault = true ∧ nextIs (step (facing faultCE .reset)) (fun t => !t.ce.fault) = true := by decide

theorem witness_StatusBits_ign :
    faultCE.ign = false ∧ nextIs (step (facing faultCE (.host 0x11701#17))) (fun t => t.ce.ign) = true ∧
      ({ faultCE with ign := true } : CE).Inv ∧
      nextIs (step (facing { faultCE with ign := true } .reset)) (fun t => !t.ce.ign) = true :=
  ⟨by decide, by decide, legal { faultCE with ign := true }, by decide⟩

theorem witness_StatusBits_ldg :
    CE.reset.ldg = false ∧ nextIs (step (facing CE.reset (.host 0x11701#17))) (fun t => t.ce.ldg && t.ce.busy) = true := by decide

theorem witness_LoadedCoefficientsAreImmutable :
    (facing sampledCE (.host 0x11702#17)).ce.Inv ∧ sampledCE.cvalid = true ∧
      (facing sampledCE (.host 0x11702#17)).turn ≠ .reset ∧
      nextIs (step (facing sampledCE (.host 0x11702#17))) (fun _ => true) = true :=
  ⟨legal_sampled, by decide, by decide, by decide⟩

theorem witness_FaultedBlockChangesOnlyIgn :
    (facing faultCE (.host 0x11702#17)).ce.Inv ∧ faultCE.fault = true ∧ (facing faultCE (.host 0x11702#17)).turn ≠ .reset :=
  ⟨legal_fault, by decide, by decide⟩

theorem witness_HostCannotDisturbABusyBlock :
    (runCE 9).busy = true ∧ (facing (runCE 9) (.host 0x11602#17)).turn = .host 0x11602#17 ∧
      (0x01E00#17).getLsbD 16 = false ∧ (0x11602#17).getLsbD 16 = true := by decide

/-! ## Premises met: whole runs -/

theorem witness_RunComputesTheReference :
    (around (runCE 1)).ce.Inv ∧ (runCE 1).mode = .computing ∧ (runCE 1).step = 1#5 ∧ (around (runCE 1)).env.events = [] ∧
      (around (runCE 1)).inputs.WellFormed :=
  ⟨legal_run_1, by decide, by decide, by decide,
    ⟨by decide, by decide, by decide, by decide, by decide, by decide, by decide, by decide, by decide, by decide, by decide⟩⟩

theorem witness_CompensationAlwaysEnds :
    (around (runCE 18)).ce.Inv ∧ (runCE 18).mode = .computing ∧ (around (runCE 18)).env.events = [] :=
  ⟨legal_run_18, by decide, by decide⟩

theorem witness_LoadEndsIfTheSourceAnswers :
    (around (loadCE 21)).ce.Inv ∧ (loadCE 21).mode = .loading ∧ (around (loadCE 21)).env.events = [] ∧
      none ∉ (loadAt 21 0x034#9).env.srcAnswers ∧ (loadAt 21 0x034#9).env.srcSilent = false ∧
      none ∉ (around (loadCE 21)).env.srcAnswers :=
  ⟨legal_load_21, by decide, by decide, by decide, by decide, by decide⟩

/-- The bytes of V23. -/
def knownBytes : Vector Byte 22 :=
  #v[0x01#8, 0x98#8, 0xFF#8, 0xB8#8, 0xC7#8, 0xD1#8, 0x7F#8, 0xE5#8, 0x7F#8, 0xF5#8, 0x5A#8, 0x71#8, 0x18#8, 0x2E#8,
    0x00#8, 0x04#8, 0x80#8, 0x00#8, 0xDD#8, 0xF9#8, 0x0B#8, 0x34#8]

/-- Loading, with the answers of V23 listed. -/
def loadKnown : State :=
  { ce := loadCE 0, env := { Env.initial with srcAnswers := knownBytes.toList.map (fun b => some (0#1 ++ b)) } }

theorem witness_SuccessfulLoadCommitsTheAnsweredBytes :
    loadKnown.ce.mode = .loading ∧ loadKnown.ce.ldcnt = 0#5 ∧ loadKnown.env.events = [] ∧
      loadKnown.env.srcAnswers = knownBytes.toList.map (fun b => some (0#1 ++ b)) ++ [] := by decide

theorem witness_FailedReadEndsTheLoad :
    let zeros : List Byte := List.replicate 21 0x00#8
    let first : State := { loadKnown with env := { loadKnown.env with srcAnswers := [some 0x100#9] } }
    let last : State := { loadKnown with
      env := { loadKnown.env with srcAnswers := zeros.map (fun b => some (0#1 ++ b)) ++ some 0x1FF#9 :: [] } }
    first.ce.mode = .loading ∧ first.ce.ldcnt = 0#5 ∧ first.env.events = [] ∧ (0x100#9).getLsbD 8 = true ∧
      first.env.srcAnswers = ([] : List Byte).map (fun b => some (0#1 ++ b)) ++ some 0x100#9 :: [] ∧ first.ce.Inv ∧
      last.ce.mode = .loading ∧ last.ce.ldcnt = 0#5 ∧ zeros.length ≤ 21 ∧ (0x1FF#9).getLsbD 8 = true :=
  ⟨by decide, by decide, by decide, by decide, by decide, legal_load_0, by decide, by decide, by decide, by decide⟩

/-- Two runs that differ in what an earlier run left behind. -/
theorem witness_RunOutcomeDependsOnInputsOnly :
    let old : CE := { runCE 1 with p := some 1#32, press := some 5#32, ign := true }
    (around (runCE 1)).ce.Inv ∧ old.Inv ∧ old.mode = .computing ∧ old.step = 1#5 ∧ (around old).env.events = [] ∧
      (around (runCE 1)).inputs = (around old).inputs :=
  ⟨legal_run_1, legal { runCE 1 with p := some 1#32, press := some 5#32, ign := true }, by decide, by decide, by decide, by decide⟩

/-- A read before the first micro-step, an ignored write after it. -/
theorem witness_InterleavedHostDoesNotChangeARun :
    let es : List Event := .host 0x01E00#17 :: .seq :: .host 0x11602#17 :: List.replicate 16 .seq
    let s : State := { ce := runCE 1, env := { Env.initial with events := es ++ [.seq] } }
    s.ce.Inv ∧ s.ce.mode = .computing ∧ s.ce.step = 1#5 ∧ s.env.events = es ++ [.seq] ∧ .reset ∉ es ∧ es.count .seq = 17 :=
  ⟨legal_run_1, by decide, by decide, by decide, by decide, by decide⟩

/-- Pressures on either side of 101325 Pa, each with the altitude the formula gives it. -/
theorem witness_AltitudeDecreasesThroughZero :
    (0 : Int) < 101324 ∧ (101324 : Int) < 101326 ∧
      IsAltitude 101324 (44330 * (1 - (((101324 : Int) : ℝ) / 101325) ^ ((1 : ℝ) / 5.255))) ∧
      IsAltitude 101326 (44330 * (1 - (((101326 : Int) : ℝ) / 101325) ^ ((1 : ℝ) / 5.255))) :=
  ⟨by decide, by decide, fun _ => rfl, fun _ => rfl⟩

theorem witness_CompletedRunDeliversTheOutputTriple :
    (around doneCE).ce.Inv ∧ (around doneCE).ce.Bounds ∧ (around doneCE).ce.done = true :=
  ⟨legal_done, by decide, by decide⟩

end Sys2Proof.Tests
end

section
/-! PROOFS. The arithmetic primitives of spec/00_scope.md: the signed ones (R6) and the unsigned ones (R7). -/

namespace Sys2Proof.Machine

/-! ## Signed primitives (R6) -/

/-- What R6 asks of a signed primitive whose exact result is `r`: that integer when it fits, `OVF` when it does not. -/
def IsExactOrOvf (r : Int) (e : Except Cause W32) : Prop :=
  (-2147483648 ≤ r ∧ r ≤ 2147483647 → ∃ v : W32, e = .ok v ∧ v.toInt = r) ∧
    (¬ (-2147483648 ≤ r ∧ r ≤ 2147483647) → e = .error .ovf)

/-- Every primitive that narrows its exact result is exact or answers `OVF`. -/
theorem narrowS32_isExactOrOvf (r : Int) : IsExactOrOvf r (narrowS32 r) := by
  constructor
  · intro hr
    have hfits := (fitsS32_iff r).2 hr
    exact ⟨_, narrowS32_of_fits hfits, toInt_ofInt_of_fits hfits⟩
  · intro hr
    exact narrowS32_of_not_fits (mt (fitsS32_iff r).1 hr)

/-- Truncated division in the form R6 writes it. When `|a| < |b|` both sides are 0; otherwise the quotient has the
sign of `a * b`. -/
theorem tdiv_eq_sign_mul_natAbs_div (a b : Int) :
    a.tdiv b = a.sign * b.sign * (a.natAbs / b.natAbs : Nat) := by
  have hq : a.tdiv b = (a.tdiv b).sign * (a.natAbs / b.natAbs : Nat) := by
    calc a.tdiv b = (a.tdiv b).sign * (a.tdiv b).natAbs := (Int.sign_mul_natAbs _).symm
      _ = (a.tdiv b).sign * (a.natAbs / b.natAbs : Nat) := by rw [Int.natAbs_tdiv]; rfl
  rw [hq, Int.sign_tdiv]
  split
  case isTrue hlt => simp [Nat.div_eq_of_lt hlt]
  case isFalse => rfl

theorem sdiv32_of_zero (a : W32) {b : W32} (hb : b.toInt = 0) : sdiv32 a b = .error .div0 := if_pos hb

/-- The configured rounding is truncation, so a nonzero divisor narrows the quotient R6 writes. -/
theorem sdiv32_of_ne_zero (a : W32) {b : W32} (hb : b.toInt ≠ 0) :
    sdiv32 a b = narrowS32 (a.toInt.sign * b.toInt.sign * (a.toInt.natAbs / b.toInt.natAbs : Nat)) := by
  rw [← tdiv_eq_sign_mul_natAbs_div]
  exact if_neg hb

/-- Settles O7: all but the shift and the zero divisor narrow an exact integer. -/
theorem signedPrimitivesAreExactOrFault : Obligations.SignedPrimitivesAreExactOrFault := by
  intro a b k _
  refine ⟨narrowS32_isExactOrOvf _, narrowS32_isExactOrOvf _, narrowS32_isExactOrOvf _, narrowS32_isExactOrOvf _,
    asr32_toInt a k, sdiv32_of_zero a, fun hb => ?_⟩
  rw [sdiv32_of_ne_zero a hb]
  exact narrowS32_isExactOrOvf _

/-! ## Unsigned primitives (R7) -/

theorem udiv32_of_zero (a : W32) {b : W32} (hb : b.toNat = 0) : udiv32 a b = .error .div0 := if_pos hb

/-- A quotient is at most the dividend, so it fits and nothing is reduced. -/
theorem udiv32_of_ne_zero (a : W32) {b : W32} (hb : b.toNat ≠ 0) :
    ∃ v : W32, udiv32 a b = .ok v ∧ v.toNat = a.toNat / b.toNat := by
  have hlt : a.toNat / b.toNat < 2 ^ 32 := (Nat.div_le_self _ _).trans_lt a.isLt
  exact ⟨_, if_neg hb, (BitVec.toNat_ofNat _ _).trans (Nat.mod_eq_of_lt hlt)⟩

/-- Settles O8, a conjunct per primitive. -/
theorem unsignedPrimitivesWrap : Obligations.UnsignedPrimitivesWrap := by
  intro a b k _
  refine ⟨?_, usub32_toNat a b, ?_, lsr32_toNat a k, udiv32_of_zero a, udiv32_of_ne_zero a⟩
  case refine_1 => rw [uadd32_toNat]; norm_cast
  case refine_2 => rw [umul32_toNat]; norm_cast

end Sys2Proof.Machine
end

section
/-! PROOFS. The state after reset (spec/10_state.md R37, spec/70_reset_and_hazards.md R200). -/

namespace Sys2Proof.Machine

/-! ## The step of a reset (R200) -/

theorem step_of_reset {s : State} (h : s.turn = .reset) : step s = .next s.tick.applyReset := by
  simp only [step, h]

/-! ## The block after reset (R37) -/

theorem CE.reset_sample_and_sw (k : Fin 6) : CE.reset.sample[k] = none ∧ CE.reset.sw[k] = false := by
  revert k
  decide

theorem CE.reset_srdy : CE.reset.srdy = false := by decide

theorem CE.reset_ldbuf (k : Fin 22) : CE.reset.ldbuf[k] = none := by
  revert k
  decide

theorem CE.reset_status : CE.reset.status = 0x00#8 := by decide

theorem State.reset_oss : State.reset.oss = 0 := by decide

theorem State.reset_tconv : (tconv State.reset.oss).toNat = 4500 := by
  rw [State.reset_oss]
  rfl

/-- Settles O14: a reset completes with the block of `State.reset`. What is computed from its fields (vector entries, `SRDY`,
`STATUS`, `OSS_EFF`, `TCONV`) has lemmas of its own; every other value is a field of the definition. -/
theorem resetPutsEveryPieceAtItsResetValue : Obligations.ResetPutsEveryPieceAtItsResetValue := by
  constructor
  · intro s hturn
    exact ⟨s.tick.applyReset, step_of_reset hturn, State.applyReset_ce _⟩
  · exact ⟨rfl, rfl, rfl, CE.reset_sample_and_sw, CE.reset_srdy, rfl, rfl, rfl, rfl, rfl, rfl, rfl, rfl, rfl, rfl, rfl,
      rfl, rfl, rfl, CE.reset_ldbuf, rfl, rfl, rfl, rfl,
      CE.reset_status, State.reset_oss, State.reset_tconv⟩

end Sys2Proof.Machine
end

section
/-! PROOFS. Decoding a host word (spec/30_encoding.md R81, R82, R87). -/

namespace Sys2Proof

/-! ## The fields of a host word as numbers (R81) -/

theorem addrField_toNat (t : BitVec 17) : (addrField t).toNat = t.toNat / 256 % 256 := by
  simp [addrField, BitVec.extractLsb'_toNat, Nat.shiftRight_eq_div_pow]

theorem dataField_toNat (t : BitVec 17) : (dataField t).toNat = t.toNat % 256 := by
  simp [dataField, BitVec.extractLsb'_toNat]

theorem getLsbD_sixteen_iff (t : BitVec 17) : t.getLsbD 16 = true ↔ 0x10000 ≤ t.toNat := by
  have hlt := t.isLt
  rw [BitVec.getLsbD, Nat.testBit_eq_decide_div_mod_eq, decide_eq_true_iff]
  omega

/-! ## What each command byte decodes to (R82) -/

/-- The three named command bytes are those below 3, so every other one is reserved. -/
theorem decodeCommand_of_three_le {c : Byte} (h : 3 ≤ c.toNat) : decodeCommand c = .cmdReserved c := by
  have ne_of_lt {v : Byte} (hv : v.toNat < 3) : c ≠ v := by
    rintro rfl
    omega
  rw [decodeCommand, if_neg (ne_of_lt (by decide)), if_neg (ne_of_lt (by decide)), if_neg (ne_of_lt (by decide))]

theorem wellFormed_decodeCommand (c : Byte) : WellFormed (decodeCommand c) := by
  by_cases h : 3 ≤ c.toNat
  case pos =>
    rw [decodeCommand_of_three_le h]
    exact decide_eq_true h
  case neg =>
    have hc : c = 0x00#8 ∨ c = 0x01#8 ∨ c = 0x02#8 := by bv_omega
    obtain rfl | rfl | rfl := hc <;> rfl

/-! ## The split of the host words (R87) -/

theorem decodeHost_of_read {t : BitVec 17} (h : t.getLsbD 16 = false) : decodeHost t = .rd (addrField t) :=
  if_neg (Bool.eq_false_iff.1 h)

theorem decodeHost_of_write {t : BitVec 17} (h : t.getLsbD 16 = true) (ha : addrField t ≠ 0x17#8) :
    decodeHost t = .wr (addrField t) (dataField t) :=
  (if_pos h).trans (if_neg ha)

theorem decodeHost_of_command {t : BitVec 17} (h : t.getLsbD 16 = true) (ha : addrField t = 0x17#8) :
    decodeHost t = decodeCommand (dataField t) :=
  (if_pos h).trans (if_pos ha)

/-- The words 0x11703 to 0x117FF are the writes of 0x03 to 0xFF to `CMD`. -/
theorem decodeHost_of_reserved {t : BitVec 17} (hlo : 0x11703 ≤ t.toNat) (hhi : t.toNat ≤ 0x117FF) :
    decodeHost t = .cmdReserved (dataField t) := by
  have hwrite : t.getLsbD 16 = true := (getLsbD_sixteen_iff t).2 (by omega)
  have haddr : addrField t = 0x17#8 := by
    apply BitVec.eq_of_toNat_eq
    rw [addrField_toNat]
    change _ = 0x17
    omega
  have hdata : 3 ≤ (dataField t).toNat := by
    rw [dataField_toNat]
    omega
  rw [decodeHost_of_command hwrite haddr, decodeCommand_of_three_le hdata]

theorem wellFormed_decodeHost (t : BitVec 17) : WellFormed (decodeHost t) := by
  cases h : t.getLsbD 16
  case false =>
    rw [decodeHost_of_read h]
    rfl
  case true =>
    by_cases ha : addrField t = 0x17#8
    case pos =>
      rw [decodeHost_of_command h ha]
      exact wellFormed_decodeCommand _
    case neg =>
      rw [decodeHost_of_write h ha]
      exact decide_eq_true ha

/-- Settles O2: the lemmas of the split, one per kind of word; the three named commands are single words. -/
theorem everyHostWordIsOneInstruction : Obligations.EveryHostWordIsOneInstruction := by
  intro t
  refine ⟨decodeHost_of_read, decodeHost_of_write, ?nop, ?load, ?compensate, decodeHost_of_reserved, rfl,
    wellFormed_decodeHost t⟩
  all_goals
    rintro rfl
    rfl

end Sys2Proof
end

section
/-! PROOFS. The host byte read by the register map (spec/40_host_access_and_commands.md R100, spec/10_state.md R38). -/

namespace Sys2Proof.Machine

/-! ## Bytes of a register as numbers (20_memory.md R64) -/

theorem byteOf32_toNat (v : W32) (j : Nat) : (byteOf32 v j).toNat = v.toNat / 256 ^ (3 - j) % 256 := by
  simp [byteOf32, BitVec.extractLsb'_toNat, Nat.shiftRight_eq_div_pow, pow_mul]

theorem byteOf16_zero_toNat (v : Half) : (byteOf16 v 0).toNat = v.toNat / 256 := by
  have hlt := v.isLt
  simp only [byteOf16, BitVec.extractLsb'_toNat, Nat.shiftRight_eq_div_pow]
  omega

theorem byteOf16_one_toNat (v : Half) : (byteOf16 v 1).toNat = v.toNat % 256 := by
  simp [byteOf16, BitVec.extractLsb'_toNat]

theorem regByte_some_toNat (draws : Nat) (a : Byte) (v : W32) (j : Nat) :
    (regByte draws a (some v) j).toNat = v.toNat / 256 ^ (3 - j) % 256 :=
  byteOf32_toNat v j

/-! ## The debug window (R27) -/

/-- `CE.window` lists the working registers in the order of their host addresses. -/
theorem CE.window_getElem? (c : CE) (n : Fin 9) :
    [c.x1, c.x2, c.x3, c.b3, c.b4, c.b5, c.b6, c.b7, c.p][n]? = some (c.window n.val) := by
  fin_cases n <;> rfl

/-! ## The register map, one lemma per register (R38)

Each address is the register's first one plus an offset; the tests of `State.readByte` before that register fail. -/

section ReadByte
variable (s : State) {a : Byte}

theorem State.readByte_coef (hv : s.ce.cvalid = true) (i : Fin 11) (j : Fin 2) (ha : a.toNat = 2 * i.val + j.val) :
    s.readByte a = byteOf16 (s.coefBits i) j.val := by
  have hi : Fin.ofNat 11 (a.toNat / 2) = i := by
    apply Fin.ext
    rw [Fin.val_ofNat]
    omega
  have hj : a.toNat % 2 = j.val := by omega
  rw [State.readByte, if_pos (by omega), State.readCoef, if_pos hv, hi, hj]

theorem State.readByte_sample (k : Fin 6) (ha : a.toNat = 0x18 + k.val) : s.readByte a = s.sampleByte k := by
  have hk : Fin.ofNat 6 (a.toNat - 0x18) = k := by
    apply Fin.ext
    rw [Fin.val_ofNat]
    omega
  simp (disch := omega) only [State.readByte, if_pos, if_neg]
  rw [hk]

theorem State.readByte_temp (j : Fin 4) (ha : a.toNat = 0x20 + j.val) :
    s.readByte a = regByte s.env.draws a s.ce.temp j.val := by
  have hj : a.toNat - 0x20 = j.val := by omega
  simp (disch := omega) only [State.readByte, if_pos, if_neg, hj]

theorem State.readByte_press (j : Fin 4) (ha : a.toNat = 0x24 + j.val) :
    s.readByte a = regByte s.env.draws a s.ce.press j.val := by
  have hj : a.toNat - 0x24 = j.val := by omega
  simp (disch := omega) only [State.readByte, if_pos, if_neg, hj]

theorem State.readByte_window (n : Fin 9) (j : Fin 4) (ha : a.toNat = 0x30 + 4 * n.val + j.val) :
    s.readByte a = regByte s.env.draws a (s.ce.window n.val) j.val := by
  have hn : (a.toNat - 0x30) / 4 = n.val := by omega
  have hj : (a.toNat - 0x30) % 4 = j.val := by omega
  simp (disch := omega) only [State.readByte, if_pos, if_neg, hn, hj]

theorem State.readByte_reserved_below_window (hlo : 0x2C ≤ a.toNat) (hhi : a.toNat ≤ 0x2F) : s.readByte a = 0x00#8 := by
  simp (disch := omega) only [State.readByte, if_pos, if_neg]

theorem State.readByte_reserved_above_window (h : 0x54 ≤ a.toNat) : s.readByte a = 0x00#8 := by
  simp (disch := omega) only [State.readByte, if_neg]

end ReadByte

/-! ## The numbers read back from the read-only registers -/

theorem State.readByte_oss_toNat (s : State) : (s.readByte 0x2A#8).toNat = ossEff s.ce.ossIn := by
  have hle := s.oss_le
  change (BitVec.ofNat 8 s.oss).toNat = s.oss
  exact (BitVec.toNat_ofNat _ _).trans (Nat.mod_eq_of_lt (by omega))

theorem State.readByte_step_toNat (s : State) : (s.readByte 0x2B#8).toNat = s.ce.step.toNat := by
  change (s.ce.step.setWidth 8).toNat = _
  exact BitVec.toNat_setWidth_of_le (by decide)

/-! ## The read -/

theorem exec_rd (a : Byte) (s : State) : exec (.rd a) s = .next (s.answer (s.readByte a)) := rfl

/-- Settles O16: the byte answered is `State.readByte`, and the register map gives its value range by range. -/
theorem readAnswersByTheRegisterMap : Obligations.ReadAnswersByTheRegisterMap := by
  intro s a
  refine ⟨s.readByte a, exec_rd a s, ?coef, ?ossIn, ?cmd, ?sample, ?status, ?finfo, ?temp, ?press, ?tconvHi, ?tconvLo,
    ?oss, ?step, ?window, s.readByte_reserved_below_window, s.readByte_reserved_above_window⟩
  case coef =>
    intro i f hv hf
    rw [← s.coefBits_of_some i hf]
    constructor
    · intro ha
      rw [s.readByte_coef hv i 0 ha]
      exact byteOf16_zero_toNat _
    · intro ha
      rw [s.readByte_coef hv i 1 ha]
      exact byteOf16_one_toNat _
  case sample =>
    intro k b ha hb
    rw [s.readByte_sample k ha, s.sampleByte_of_some k hb]
  case temp =>
    intro j v ha hv
    rw [s.readByte_temp j ha, hv, regByte_some_toNat]
  case press =>
    intro j v ha hv
    rw [s.readByte_press j ha, hv, regByte_some_toNat]
  case window =>
    intro n j v ha hv
    have hw : s.ce.window n.val = some v := Option.some.inj ((s.ce.window_getElem? n).symm.trans hv)
    rw [s.readByte_window n j ha, hw, regByte_some_toNat]
  case tconvHi =>
    rintro rfl
    exact byteOf16_zero_toNat _
  case tconvLo =>
    rintro rfl
    exact byteOf16_one_toNat _
  case oss =>
    rintro rfl
    exact s.readByte_oss_toNat
  case step =>
    rintro rfl
    exact s.readByte_step_toNat
  all_goals
    rintro rfl
    rfl

end Sys2Proof.Machine
end

section
/-! PROOFS. The host byte write and the commands (spec/40_host_access_and_commands.md R101 to R106). -/

namespace Sys2Proof.Machine

/-! ## The conditions of acceptance -/

/-- Idle in the words of R108. -/
theorem CE.accepts_iff_not_fault_not_busy (c : CE) : c.accepts = true ↔ c.fault = false ∧ c.busy = false := by
  simp [CE.accepts]

/-- `SRDY` is all six flags (R26). -/
theorem CE.srdy_iff (c : CE) : c.srdy = true ↔ ∀ k : Fin 6, c.sw[k] = true := by
  simp [CE.srdy, Fin.forall_fin_succ, and_assoc]

theorem CE.load_accepted_iff (c : CE) :
    (c.accepts && !c.cvalid) = true ↔ c.fault = false ∧ c.busy = false ∧ c.cvalid = false := by
  rw [Bool.and_eq_true, c.accepts_iff_not_fault_not_busy, Bool.not_eq_true', and_assoc]

theorem CE.compensate_accepted_iff (c : CE) :
    (c.accepts && c.cvalid && c.srdy) = true ↔
      c.fault = false ∧ c.busy = false ∧ c.cvalid = true ∧ ∀ k : Fin 6, c.sw[k] = true := by
  rw [Bool.and_eq_true, Bool.and_eq_true, c.accepts_iff_not_fault_not_busy, c.srdy_iff, and_assoc, and_assoc]

/-! ## The byte write, by state and address (R101) -/

theorem exec_wr (a d : Byte) (s : State) : exec (.wr a d) s = .next (s.writeByte a d) := rfl

theorem setIfInBounds_eq_set {α : Type} {n k : Nat} (xs : Vector α n) (x : α) (h : k < n) :
    xs.setIfInBounds k x = xs.set k x h := by
  apply Vector.ext
  intro i hi
  rw [Vector.getElem_setIfInBounds, Vector.getElem_set]

/-- A sample byte is always within the six, so the bounds test of `CE.storeSample` never drops it. -/
theorem CE.storeSample_eq_set (c : CE) (k : Fin 6) (d : Byte) :
    c.storeSample k.val d =
      { c with sample := c.sample.set k.val (some d) k.isLt, sw := c.sw.set k.val true k.isLt } := by
  rw [CE.storeSample, setIfInBounds_eq_set _ _ k.isLt, setIfInBounds_eq_set _ _ k.isLt]

section WriteByte
variable {s : State} {a : Byte} (d : Byte)

theorem State.writeByte_of_not_accepts (h : ¬ s.ce.accepts = true) : s.writeByte a d = s.ignoreWrite := by
  rw [State.writeByte, if_pos (by simpa using h)]

theorem State.writeByte_ossIn (h : s.ce.accepts = true) :
    s.writeByte 0x16#8 d = s.withCE { s.ce with ossIn := d } := by
  rw [State.writeByte, if_neg (by simp [h]), if_pos (by decide)]

theorem State.writeByte_sample (h : s.ce.accepts = true) (k : Fin 6) (ha : a.toNat = 0x18 + k.val) :
    s.writeByte a d = s.withCE (s.ce.storeSample k.val d) := by
  have hk : a.toNat - 0x18 = k.val := by omega
  rw [State.writeByte, if_neg (by simp [h]), if_neg (by omega), if_pos (by omega), hk]

/-- Outside the inputs a write is ignored, whether the block is idle or not. -/
theorem State.writeByte_of_not_input (ha : a.toNat < 0x16 ∨ 0x1E ≤ a.toNat) : s.writeByte a d = s.ignoreWrite := by
  obtain hign | ⟨-, haddr, -⟩ | ⟨-, hlo, hhi, -⟩ := s.writeByte_cases a d
  · exact hign
  · omega
  · omega

end WriteByte

/-- Settles O17: a write by the state of the block, then by its address. -/
theorem writeStoresInputsOrIsIgnored : Obligations.WriteStoresInputsOrIsIgnored := by
  intro s a d _
  rw [exec_wr]
  constructor
  · intro hbusy
    have hacc : ¬ s.ce.accepts = true := by
      rw [s.ce.accepts_iff_not_fault_not_busy]
      rintro ⟨hf, hb⟩
      simp [hf, hb] at hbusy
    exact congrArg _ (State.writeByte_of_not_accepts d hacc)
  · intro hf hb
    have hacc := s.ce.accepts_iff_not_fault_not_busy.2 ⟨hf, hb⟩
    refine ⟨?ossIn, ?sample, fun ha => congrArg _ (State.writeByte_of_not_input d ha)⟩
    case ossIn =>
      rintro rfl
      rw [State.writeByte_ossIn d hacc]
    case sample =>
      intro k ha
      rw [State.writeByte_sample d hacc k ha, CE.storeSample_eq_set]

/-! ## The commands (R102 to R106) -/

theorem exec_nop (s : State) : exec .nop s = .next s := rfl

theorem exec_cmdReserved (c : Byte) (s : State) : exec (.cmdReserved c) s = .next s.ignoreWrite := rfl

theorem exec_load (s : State) : exec .load s = .next s.loadCommand := rfl

theorem exec_compensate (s : State) : exec .compensate s = .next s.compensateCommand := rfl

/-- Settles O19: neither arm looks at the state. -/
theorem nopDoesNothingAndReservedSetsIgn : Obligations.NopDoesNothingAndReservedSetsIgn :=
  fun s => ⟨exec_nop s, fun c _ => exec_cmdReserved c s⟩

/-- Settles O20, by the condition under which `LOAD` is accepted. -/
theorem loadStartsALoadOrIsIgnored : Obligations.LoadStartsALoadOrIsIgnored := by
  intro s
  rw [← s.ce.load_accepted_iff, exec_load]
  constructor
  · intro h
    exact ⟨congrArg _ (if_pos h), rfl, rfl⟩
  · intro h
    exact congrArg _ (if_neg h)

/-- The flags an accepted `COMPENSATE` leaves (R105). -/
theorem no_sample_flag (k : Fin 6) : #v[false, false, false, false, false, false][k] = false := by
  revert k
  decide

/-- Settles O21, by the condition under which `COMPENSATE` is accepted. -/
theorem compensateStartsARunOrIsIgnored : Obligations.CompensateStartsARunOrIsIgnored := by
  intro s
  rw [← s.ce.compensate_accepted_iff, exec_compensate]
  constructor
  · intro h
    exact ⟨_, congrArg _ (if_pos h), rfl, rfl, rfl, no_sample_flag, rfl⟩
  · intro h
    exact congrArg _ (if_neg h)

end Sys2Proof.Machine
end

section
/-! PROOFS. The oversampling table (spec/41_oversampling_lut.md R120 to R123, R125). -/

namespace Sys2Proof.Machine

/-- Inside 0 to 3 the clamp keeps the setting (R120). -/
theorem ossEff_of_le_three {o : Byte} (h : o.toNat ≤ 3) : ossEff o = o.toNat := if_pos h

/-- Outside 0 to 3 the clamp gives level 0 (R120). -/
theorem ossEff_of_four_le {o : Byte} (h : 4 ≤ o.toNat) : ossEff o = 0 := if_neg (by omega)

/-- Settles O10: the clamp case by case, then one row per level, where only `scaleK` is computed (R122). -/
theorem oversamplingTable : Obligations.OversamplingTable := by
  intro o
  refine ⟨?byte0, ?byte1, ?byte2, ?byte3, ossEff_of_four_le, ?level0, ?level1, ?level2, ?level3⟩
  case byte0 | byte1 | byte2 | byte3 =>
    rintro rfl
    exact ossEff_of_le_three (by decide)
  case level0 | level1 | level2 | level3 =>
    intro h
    rw [h]
    exact ⟨rfl, scaleK_toNat _, rfl, rfl⟩

end Sys2Proof.Machine
end

section
/-! PROOFS. Pipeline steps 1 to 4, and step 8, which writes the sum of step 3 to another register
(spec/42_compensate_temperature.md R130 to R133, spec/43_compensate_pressure.md R143). -/

namespace Sys2Proof.Machine

/-! ## The steps as the end of a value (R9) -/

theorem exec_u1 (s : State) :
    exec .u1 s = .next (s.settle 1#5 (u1Value s) fun c v => { c with x1 := some v, step := 2#5 }) := rfl

theorem exec_u2 (s : State) :
    exec .u2 s = .next (s.settle 2#5 (u2Value s) fun c v => { c with x2 := some v, step := 3#5 }) := rfl

theorem exec_u3 (s : State) :
    exec .u3 s = .next (s.settle 3#5 (u3Value s) fun c v => { c with b5 := some v, step := 4#5 }) := rfl

theorem exec_u4 (s : State) :
    exec .u4 s = .next (s.settle 4#5 (u4Value s) fun c v => { c with temp := some v, step := 5#5 }) := rfl

theorem exec_u8 (s : State) :
    exec .u8 s = .next (s.settle 8#5 (u8Value s) fun c v => { c with x3 := some v, step := 9#5 }) := rfl

/-! ## Sequencing after an exact primitive (R6, R9) -/

/-- A step that ends by shifting an exact result right writes its floor by `2^k` when the result fits. -/
theorem IsExactOrOvf.asr32_ok {r : Int} {e : Except Cause W32} (he : IsExactOrOvf r e) (k : Nat)
    (hr : -2147483648 ≤ r ∧ r ≤ 2147483647) :
    ∃ v : W32, (e >>= fun m => pure (asr32 m k)) = .ok v ∧ v.toInt = r / 2 ^ k := by
  obtain ⟨m, rfl, hm⟩ := he.1 hr
  exact ⟨asr32 m k, rfl, by rw [asr32_toInt, hm]⟩

/-- The overflow of a primitive ends its step, whatever comes after it. -/
theorem IsExactOrOvf.bind_ovf {r : Int} {e : Except Cause W32} (he : IsExactOrOvf r e)
    (hr : ¬ (-2147483648 ≤ r ∧ r ≤ 2147483647)) (f : W32 → Except Cause W32) : (e >>= f) = .error .ovf := by
  rw [he.2 hr, error_bind]

/-! ## Step 1 (R130) -/

theorem State.a5_range (s : State) : 0 ≤ s.a5.toInt ∧ s.a5.toInt ≤ 65535 := s.coefValue_range_unsigned 4 rfl

theorem State.a6_range (s : State) : 0 ≤ s.a6.toInt ∧ s.a6.toInt ≤ 65535 := s.coefValue_range_unsigned 5 rfl

theorem u1_difference_range (s : State) :
    -65535 ≤ s.ut.toInt - s.a6.toInt ∧ s.ut.toInt - s.a6.toInt ≤ 65535 := by
  have hut := s.ut_range
  have ha6 := s.a6_range
  omega

/-- The threshold of R130: 65535 · 32768 is the greatest product below `2^31` that `A5` allows for every sample. -/
theorem u1_product_range (s : State) (h : s.a5.toInt ≤ 32768) :
    -2147483648 ≤ (s.ut.toInt - s.a6.toInt) * s.a5.toInt ∧ (s.ut.toInt - s.a6.toInt) * s.a5.toInt ≤ 2147483647 := by
  obtain ⟨hlo, hhi⟩ := u1_difference_range s
  obtain ⟨h0, -⟩ := s.a5_range
  constructor <;> nlinarith

/-- The difference always fits, so only the product can fail. -/
theorem u1Value_eq (s : State) :
    u1Value s = (narrowS32 ((s.ut.toInt - s.a6.toInt) * s.a5.toInt) >>= fun m => pure (asr32 m 15)) := by
  have hd := u1_difference_range s
  obtain ⟨d, hok, hint⟩ := (narrowS32_isExactOrOvf (s.ut.toInt - s.a6.toInt)).1 (by omega)
  rw [u1Value, ssub32, hok, ok_bind, smul32, hint]

/-- Settles O25, by the one primitive of step 1 that can fail, the product. -/
theorem step1WritesX1OrOverflows : Obligations.Step1WritesX1OrOverflows := by
  intro s d m
  have hm : IsExactOrOvf m (narrowS32 m) := narrowS32_isExactOrOvf m
  refine ⟨u1_difference_range s, u1_product_range s, fun hfits => ?completes, fun hover => ?overflows⟩
  case completes =>
    obtain ⟨v, hok, hint⟩ := hm.asr32_ok 15 hfits
    refine ⟨v, hint, by omega, by omega, ?_⟩
    rw [exec_u1, u1Value_eq, hok, State.settle_ok]
  case overflows =>
    rw [exec_u1, u1Value_eq, hm.bind_ovf hover, State.settle_error]

/-! ## Step 2 (R131) -/

theorem State.mc_range (s : State) : -32768 ≤ s.mc.toInt ∧ s.mc.toInt ≤ 32767 := s.coefValue_range_signed 9 rfl

theorem State.md_range (s : State) : -32768 ≤ s.md.toInt ∧ s.md.toInt ≤ 32767 := s.coefValue_range_signed 10 rfl

/-- The numerator always fits, so only the denominator and the division can fail. -/
theorem u2Value_eq (s : State) :
    ∃ n : W32, n.toInt = s.mc.toInt * 2048 ∧
      u2Value s = (narrowS32 (s.x1.toInt + s.md.toInt) >>= fun den => sdiv32 n den) := by
  have hmc := s.mc_range
  obtain ⟨n, hok, hint⟩ := (narrowS32_isExactOrOvf (s.mc.toInt * 2 ^ 11)).1 (by omega)
  refine ⟨n, hint, ?_⟩
  rw [u2Value, sshl32, hok, ok_bind, sadd32]

/-- A quotient rounded toward zero is no larger in size than its dividend. -/
theorem natAbs_sign_mul_natAbs_div_le (a b : Int) :
    (a.sign * b.sign * (a.natAbs / b.natAbs : Nat)).natAbs ≤ a.natAbs := by
  rw [← tdiv_eq_sign_mul_natAbs_div]
  exact Int.natAbs_tdiv_le_natAbs a b

/-- Settles O26: the denominator overflows or it is exact, and an exact one is zero or divides the numerator. -/
theorem step2DividesOrFaults : Obligations.Step2DividesOrFaults := by
  intro s n den
  have hmc := s.mc_range
  have hmd := s.md_range
  have hn : -67108864 ≤ n ∧ n ≤ 67106816 := by omega
  have hden : IsExactOrOvf den (narrowS32 den) := narrowS32_isExactOrOvf den
  obtain ⟨num, hnum, hvalue⟩ := u2Value_eq s
  refine ⟨hn, fun hx1 => by omega, fun hzero => ?divZero, fun hne hfits => ?divides, fun hover => ?overflows⟩
  case divZero =>
    obtain ⟨b, hok, hint⟩ := hden.1 (by omega)
    rw [exec_u2, hvalue, hok, ok_bind, sdiv32_of_zero num (hint.trans hzero), State.settle_error]
  case divides =>
    obtain ⟨b, hok, hint⟩ := hden.1 hfits
    have hsize := natAbs_sign_mul_natAbs_div_le n den
    obtain ⟨v, hv, hvint⟩ :=
      (narrowS32_isExactOrOvf (n.sign * den.sign * (n.natAbs / den.natAbs : Nat))).1 (by omega)
    refine ⟨v, hvint, by omega, by omega, ?_⟩
    rw [exec_u2, hvalue, hok, ok_bind, sdiv32_of_ne_zero num (hint.trans_ne hne), hnum, hint, hv, State.settle_ok]
  case overflows =>
    rw [exec_u2, hvalue, hden.bind_ovf hover, State.settle_error]

/-! ## Steps 3 and 8 (R132, R143) -/

theorem u3Value_eq (s : State) : u3Value s = narrowS32 (s.x1.toInt + s.x2.toInt) := rfl

theorem u8Value_eq (s : State) : u8Value s = narrowS32 (s.x1.toInt + s.x2.toInt) := rfl

/-- Settles O27: both steps narrow the same sum. -/
theorem steps3And8AddX1AndX2 : Obligations.Steps3And8AddX1AndX2 := by
  intro s r
  have hr : IsExactOrOvf r (narrowS32 r) := narrowS32_isExactOrOvf r
  refine ⟨fun hx1 hx2 => by omega, fun hx1 hx2 => by omega, fun hfits => ?completes, fun hover => ?overflows⟩
  case completes =>
    obtain ⟨v, hok, hint⟩ := hr.1 hfits
    refine ⟨v, hint, ?_, ?_⟩
    · rw [exec_u3, u3Value_eq, hok, State.settle_ok]
    · rw [exec_u8, u8Value_eq, hok, State.settle_ok]
  case overflows =>
    constructor
    · rw [exec_u3, u3Value_eq, hr.2 hover, State.settle_error]
    · rw [exec_u8, u8Value_eq, hr.2 hover, State.settle_error]

/-! ## Step 4 (R133) -/

theorem u4Value_eq (s : State) : u4Value s = (narrowS32 (s.b5.toInt + 8) >>= fun t => pure (asr32 t 4)) := rfl

/-- Settles O28: the sum `B5 + 8` can leave the range at its upper end only. -/
theorem step4WritesTemperature : Obligations.Step4WritesTemperature := by
  intro s
  have hb5 := toInt_range s.b5
  have hsum := narrowS32_isExactOrOvf (s.b5.toInt + 8)
  refine ⟨fun hle => ?completes, fun hgt => ?overflows⟩
  case completes =>
    obtain ⟨v, hok, hint⟩ := hsum.asr32_ok 4 (by omega)
    refine ⟨v, hint, ?_⟩
    rw [exec_u4, u4Value_eq, hok, State.settle_ok]
  case overflows =>
    rw [exec_u4, u4Value_eq, hsum.bind_ovf (by omega), State.settle_error]

end Sys2Proof.Machine
end

section
/-! PROOFS. Sequencing of narrowing primitives, bounds of products, and the signed and the unsigned value of a word, for
the steps of the pressure calculation (spec/00_scope.md R6 to R9). -/

namespace Sys2Proof.Machine

/-! ## Sequencing after an exact primitive (R6, R9) -/

section Outcome

variable {s : State} {n : BitVec 5} {e : Except Cause W32} {put : CE → W32 → CE}
  {o : Host.Outcome State Fault Refusal} {r : Int}

/-- A step whose first primitive overflows takes `OVF`, whatever comes after it. -/
theorem outcome_raises_ovf {f : W32 → Except Cause W32} (ho : o = .next (s.settle n e put))
    (he : e = (narrowS32 r >>= f)) (hr : ¬ (-2147483648 ≤ r ∧ r ≤ 2147483647)) :
    o = .next (raiseFault .ovf n s) := by
  rw [ho, he, (narrowS32_isExactOrOvf r).bind_ovf hr, State.settle_error]

/-- A step that ends by shifting an exact result right writes its floor by `2^k`. -/
theorem outcome_writes_shifted {k : Nat} (ho : o = .next (s.settle n e put))
    (he : e = (narrowS32 r >>= fun m => pure (asr32 m k))) (hr : -2147483648 ≤ r ∧ r ≤ 2147483647) :
    ∃ v : W32, v.toInt = r / 2 ^ k ∧ o = .next (s.withCE (put s.ce v)) := by
  obtain ⟨v, hok, hint⟩ := (narrowS32_isExactOrOvf r).asr32_ok k hr
  exact ⟨v, hint, by rw [ho, he, hok, State.settle_ok]⟩

end Outcome

/-- When the first of two primitives is exact, the second narrows its result `g` of that exact integer. -/
theorem narrowS32_bind_narrowS32 {r : Int} (hr : -2147483648 ≤ r ∧ r ≤ 2147483647) (g : Int → Int)
    (f : W32 → Except Cause W32) :
    (narrowS32 r >>= fun v => narrowS32 (g v.toInt) >>= f) = (narrowS32 (g r) >>= f) := by
  obtain ⟨v, hok, hint⟩ := (narrowS32_isExactOrOvf r).1 hr
  rw [hok, ok_bind, hint]

/-! ## Bounds of products -/

theorem natAbs_mul_le {a b : Int} {m n : Nat} (ha : a.natAbs ≤ m) (hb : b.natAbs ≤ n) : (a * b).natAbs ≤ m * n :=
  (Int.natAbs_mul a b).trans_le (Nat.mul_le_mul ha hb)

/-- The threshold of R141, R146 and R151: 46340 is the greatest integer whose square is below `2^31`. -/
theorem mul_self_fits_iff (a : Int) :
    (-2147483648 ≤ a * a ∧ a * a ≤ 2147483647) ↔ a.natAbs ≤ 46340 := by
  have hsq : a * a = (a.natAbs * a.natAbs : Nat) := Int.natAbs_mul_self.symm
  constructor
  · rintro ⟨-, hle⟩
    by_contra hgt
    have := Nat.mul_le_mul (show 46341 ≤ a.natAbs by omega) (show 46341 ≤ a.natAbs by omega)
    omega
  · intro hle
    have := Nat.mul_le_mul hle hle
    omega

theorem State.coefValue_natAbs_le (s : State) (i : Fin 11) (h : coefUnsigned i = false) :
    (s.coefValue i).toInt.natAbs ≤ 32768 := by
  have hrange := s.coefValue_range_signed i h
  omega

/-- The clamped level is at most 3, so a left shift by it is a product by at most 8 (R120, R123). -/
theorem natAbs_mul_two_pow_ossEff_le {b : Int} {n : Nat} (hb : b.natAbs ≤ n) (o : Byte) :
    (b * 2 ^ ossEff o).natAbs ≤ n * 8 := by
  refine natAbs_mul_le hb ?_
  rw [Int.natAbs_pow]
  exact Nat.pow_le_pow_right (by decide) (ossEff_le o)

/-! ## The signed and the unsigned value of a word (R8) -/

/-- A word read unsigned is its signed value modulo `2^32`. -/
theorem toNat_eq_toInt_emod (a : W32) : (a.toNat : Int) = a.toInt % 4294967296 := by
  have hlt := a.isLt
  have hmod := Int.bmod_emod (x := a.toNat) (m := 2 ^ 32)
  rw [← BitVec.toInt_eq_toNat_bmod] at hmod
  omega

end Sys2Proof.Machine
end

section
/-! PROOFS. Pipeline steps 5 to 17 but for 8 and 15 (spec/43_compensate_pressure.md R140 to R149, R151, R152). -/

namespace Sys2Proof.Machine

/-! ## The steps as the end of a value (R9) -/

theorem exec_u5 (s : State) :
    exec .u5 s = .next (s.settle 5#5 (u5Value s) fun c v => { c with b6 := some v, step := 6#5 }) := rfl

theorem exec_u6 (s : State) :
    exec .u6 s = .next (s.settle 6#5 (u6Value s) fun c v => { c with x1 := some v, step := 7#5 }) := rfl

theorem exec_u7 (s : State) :
    exec .u7 s = .next (s.settle 7#5 (u7Value s) fun c v => { c with x2 := some v, step := 8#5 }) := rfl

theorem exec_u9 (s : State) :
    exec .u9 s = .next (s.settle 9#5 (u9Value s) fun c v => { c with b3 := some v, step := 10#5 }) := rfl

theorem exec_u10 (s : State) :
    exec .u10 s = .next (s.settle 10#5 (u10Value s) fun c v => { c with x1 := some v, step := 11#5 }) := rfl

theorem exec_u11 (s : State) :
    exec .u11 s = .next (s.settle 11#5 (u11Value s) fun c v => { c with x2 := some v, step := 12#5 }) := rfl

theorem exec_u12 (s : State) :
    exec .u12 s = .next (s.settle 12#5 (u12Value s) fun c v => { c with x3 := some v, step := 13#5 }) := rfl

theorem exec_u13 (s : State) :
    exec .u13 s = .next (s.settle 13#5 (u13Value s) fun c v => { c with b4 := some v, step := 14#5 }) := rfl

theorem exec_u14 (s : State) :
    exec .u14 s = .next (s.settle 14#5 (u14Value s) fun c v => { c with b7 := some v, step := 15#5 }) := rfl

theorem exec_u16 (s : State) : exec .u16 s = .next s.stepU16 := rfl

theorem exec_u17 (s : State) :
    exec .u17 s = .next (s.settle 17#5 (u17Value s) fun c v => { c with x2 := some v, step := 18#5 }) := rfl

/-! ## Step 5 (R140) -/

theorem u5Value_eq (s : State) : u5Value s = narrowS32 (s.b5.toInt - 4000) := rfl

/-- Settles O29: the difference `B5 - 4000` can leave the range at its lower end only. -/
theorem step5SubtractsIntoB6 : Obligations.Step5SubtractsIntoB6 := by
  intro s
  have hb5 := toInt_range s.b5
  have hdiff := narrowS32_isExactOrOvf (s.b5.toInt - 4000)
  refine ⟨fun hge => ?completes, fun hlt => ?overflows⟩
  case completes =>
    obtain ⟨v, hok, hint⟩ := hdiff.1 (by omega)
    refine ⟨v, hint, ?_⟩
    rw [exec_u5, u5Value_eq, hok, State.settle_ok]
  case overflows =>
    rw [exec_u5, u5Value_eq, hdiff.2 (by omega), State.settle_error]

/-! ## Steps 6 and 11: a coefficient times the square of `B6` (R141, R146) -/

theorem u6Value_eq (s : State) :
    u6Value s = (narrowS32 (s.b6.toInt * s.b6.toInt) >>= fun m1 =>
      narrowS32 (s.cb2.toInt * (m1.toInt / 4096)) >>= fun m2 => pure (asr32 m2 11)) := by
  simp only [u6Value, smul32, asr32_toInt]
  rfl

theorem u11Value_eq (s : State) :
    u11Value s = (narrowS32 (s.b6.toInt * s.b6.toInt) >>= fun m1 =>
      narrowS32 (s.cb1.toInt * (m1.toInt / 4096)) >>= fun m2 => pure (asr32 m2 16)) := by
  simp only [u11Value, smul32, asr32_toInt]
  rfl

theorem squareQuotient_range {b : Int} (hb : b.natAbs ≤ 46340) : 0 ≤ b * b / 4096 ∧ b * b / 4096 ≤ 524266 := by
  have hnonneg := mul_self_nonneg b
  have hle := natAbs_mul_le hb hb
  omega

/-- Once the square is exact, the product is the only primitive left that can fail. -/
theorem squareProduct_eq_of_natAbs_le (c : W32) {b : Int} (hb : b.natAbs ≤ 46340) (f : W32 → Except Cause W32) :
    (narrowS32 (b * b) >>= fun m1 => narrowS32 (c.toInt * (m1.toInt / 4096)) >>= f) =
      (narrowS32 (c.toInt * (b * b / 4096)) >>= f) :=
  narrowS32_bind_narrowS32 ((mul_self_fits_iff b).2 hb) (fun r => c.toInt * (r / 4096)) f

/-- The threshold of R141 and R146: a coefficient of size 4096 or less cannot make the product overflow. -/
theorem squareProduct_fits {b c : Int} (hb : b.natAbs ≤ 46340) (hc : c.natAbs ≤ 4096) :
    -2147483648 ≤ c * (b * b / 4096) ∧ c * (b * b / 4096) ≤ 2147483647 := by
  have hq := squareQuotient_range hb
  have hle := natAbs_mul_le hc (show (b * b / 4096).natAbs ≤ 524266 by omega)
  omega

/-- Settles O30: the square overflows, or it is exact and the product overflows or is shifted. -/
theorem step6WritesX1OrOverflows : Obligations.Step6WritesX1OrOverflows := by
  intro s q m2
  refine ⟨fun hlarge => ?squareOverflows, fun hb6 => ?squareFits⟩
  case squareOverflows =>
    exact outcome_raises_ovf (exec_u6 s) (u6Value_eq s) ((mul_self_fits_iff _).not.2 (by omega))
  case squareFits =>
    have hvalue := (u6Value_eq s).trans (squareProduct_eq_of_natAbs_le s.cb2 hb6 _)
    obtain ⟨hq0, hq⟩ := squareQuotient_range hb6
    refine ⟨hq0, hq, squareProduct_fits hb6, fun hfits => ?completes, outcome_raises_ovf (exec_u6 s) hvalue⟩
    obtain ⟨v, (hint : v.toInt = m2 / 2048), hexec⟩ := outcome_writes_shifted (exec_u6 s) hvalue hfits
    exact ⟨v, hint, by omega, by omega, hexec⟩

/-- Settles O33: the square overflows, or it is exact and the product overflows or is shifted. -/
theorem step11WritesX2OrOverflows : Obligations.Step11WritesX2OrOverflows := by
  intro s q m2
  refine ⟨fun hlarge => ?squareOverflows, fun hb6 => ?squareFits⟩
  case squareOverflows =>
    exact outcome_raises_ovf (exec_u11 s) (u11Value_eq s) ((mul_self_fits_iff _).not.2 (by omega))
  case squareFits =>
    have hvalue := (u11Value_eq s).trans (squareProduct_eq_of_natAbs_le s.cb1 hb6 _)
    refine ⟨squareProduct_fits hb6, fun hfits => ?completes, outcome_raises_ovf (exec_u11 s) hvalue⟩
    obtain ⟨v, (hint : v.toInt = m2 / 65536), hexec⟩ := outcome_writes_shifted (exec_u11 s) hvalue hfits
    exact ⟨v, hint, by omega, by omega, hexec⟩

/-! ## Steps 7 and 10: a coefficient times `B6` (R142, R145) -/

theorem u7Value_eq (s : State) :
    u7Value s = (narrowS32 (s.a2.toInt * s.b6.toInt) >>= fun m => pure (asr32 m 11)) := rfl

theorem u10Value_eq (s : State) :
    u10Value s = (narrowS32 (s.a3.toInt * s.b6.toInt) >>= fun m => pure (asr32 m 13)) := rfl

/-- Settles O31: each step narrows one product and shifts it; `32768 * 46340` is below `2^31`. -/
theorem steps7And10ScaleB6 : Obligations.Steps7And10ScaleB6 := by
  intro s m7 m10
  refine ⟨fun hb6 => ?bounds,
    outcome_writes_shifted (exec_u7 s) (u7Value_eq s), outcome_raises_ovf (exec_u7 s) (u7Value_eq s),
    outcome_writes_shifted (exec_u10 s) (u10Value_eq s), outcome_raises_ovf (exec_u10 s) (u10Value_eq s)⟩
  have h7 : m7.natAbs ≤ 32768 * 46340 := natAbs_mul_le (s.coefValue_natAbs_le 1 rfl) hb6
  have h10 : m10.natAbs ≤ 32768 * 46340 := natAbs_mul_le (s.coefValue_natAbs_le 2 rfl) hb6
  omega

/-! ## Step 9 (R144) -/

theorem State.a1_natAbs_le (s : State) : s.a1.toInt.natAbs ≤ 32768 := s.coefValue_natAbs_le 0 rfl

/-- `A1 * 4` always fits, so only the first sum, the left shift and the second sum can fail. -/
theorem u9Value_eq (s : State) :
    u9Value s = (narrowS32 (s.a1.toInt * 4 + s.x3.toInt) >>= fun b =>
      narrowS32 (b.toInt * 2 ^ ossEff s.ce.ossIn) >>= fun c =>
      narrowS32 (c.toInt + 2) >>= fun t => pure (asr32 t 2)) := by
  have ha1 := s.a1_natAbs_le
  exact narrowS32_bind_narrowS32 (r := s.a1.toInt * 4) (by omega) (· + s.x3.toInt) _

/-- Settles O32: the three primitives that can fail, in order, then the shift. -/
theorem step9WritesB3 : Obligations.Step9WritesB3 := by
  intro s b c fits
  have hafterB := fun hb : fits b =>
    (u9Value_eq s).trans (narrowS32_bind_narrowS32 hb (· * 2 ^ ossEff s.ce.ossIn) _)
  have hafterC := fun (hb : fits b) (hc : fits c) =>
    (hafterB hb).trans (narrowS32_bind_narrowS32 hc (· + 2) _)
  refine ⟨fun hx3 => ?bounds, fun ⟨hb, hc, hsum⟩ => outcome_writes_shifted (exec_u9 s) (hafterC hb hc) hsum,
    fun hover => ?overflows⟩
  case bounds =>
    have ha1 := s.a1_natAbs_le
    have hb : b.natAbs ≤ 1921088 := by omega
    have hc : c.natAbs ≤ 1921088 * 8 := natAbs_mul_two_pow_ossEff_le hb s.ce.ossIn
    exact ⟨by omega, ⟨by omega, by omega⟩, ⟨by omega, by omega⟩, ⟨by omega, by omega⟩, by omega, by omega⟩
  case overflows =>
    by_cases hb : fits b
    · by_cases hc : fits c
      · exact outcome_raises_ovf (exec_u9 s) (hafterC hb hc) fun hsum => hover ⟨hb, hc, hsum⟩
      · exact outcome_raises_ovf (exec_u9 s) (hafterB hb) hc
    · exact outcome_raises_ovf (exec_u9 s) (u9Value_eq s) hb

/-! ## Step 12 (R147) -/

theorem u12Value_eq (s : State) :
    u12Value s = (narrowS32 (s.x1.toInt + s.x2.toInt) >>= fun t =>
      narrowS32 (t.toInt + 2) >>= fun t2 => pure (asr32 t2 2)) := rfl

/-- Settles O34: two sums that can fail, in order, then the shift. -/
theorem step12WritesX3 : Obligations.Step12WritesX3 := by
  intro s r fits
  have hafterR := fun hr : fits r => (u12Value_eq s).trans (narrowS32_bind_narrowS32 hr (· + 2) _)
  refine ⟨fun hx1 hlo hhi => ⟨⟨by omega, by omega⟩, ⟨by omega, by omega⟩, by omega, by omega⟩,
    fun ⟨hr, hsum⟩ => outcome_writes_shifted (exec_u12 s) (hafterR hr) hsum, fun hover => ?overflows⟩
  by_cases hr : fits r
  · exact outcome_raises_ovf (exec_u12 s) (hafterR hr) fun hsum => hover ⟨hr, hsum⟩
  · exact outcome_raises_ovf (exec_u12 s) (u12Value_eq s) hr

/-! ## Step 13 (R148) -/

theorem State.a4_toNat_le (s : State) : s.a4.toNat ≤ 65535 := by
  have hrange : 0 ≤ s.a4.toInt ∧ s.a4.toInt ≤ 65535 := s.coefValue_range_unsigned 3 rfl
  have hmod := toNat_eq_toInt_emod s.a4
  omega

theorem u13Value_eq (s : State) :
    u13Value s = (narrowS32 (s.x3.toInt + 32768) >>= fun a => .ok (lsr32 (umul32 s.a4 (toU32 a)) 15)) := rfl

/-- The product of step 13 is taken of the unsigned operands and reduced before the shift. -/
theorem lsr32_umul32_toNat (a b : W32) (k : Nat) :
    ((lsr32 (umul32 a (toU32 b)) k).toNat : Int) = a.toNat * (b.toInt % 4294967296) % 4294967296 / 2 ^ k := by
  rw [toU32_eq, lsr32_toNat, umul32_toNat, ← toNat_eq_toInt_emod]
  norm_cast

/-- Settles O35: only the signed sum can fail. -/
theorem step13WritesB4Unsigned : Obligations.Step13WritesB4Unsigned := by
  intro s a
  have hx3 := toInt_range s.x3
  have hsum : IsExactOrOvf a (narrowS32 a) := narrowS32_isExactOrOvf a
  refine ⟨fun h => by omega, fun hlo hhi => ?exact, fun hle => ?completes, fun hgt => ?overflows⟩
  case exact =>
    have ha4 := s.a4_toNat_le
    have := natAbs_mul_le (a := s.a4.toNat) (b := a) (m := 65535) (n := 65536) (by omega) (by omega)
    omega
  case completes =>
    obtain ⟨v, hok, hint⟩ := hsum.1 (by omega)
    have hnat := hint ▸ lsr32_umul32_toNat s.a4 v 15
    refine ⟨_, hnat, by omega, ?_⟩
    rw [exec_u13, u13Value_eq, hok, ok_bind, State.settle_ok]
  case overflows =>
    exact outcome_raises_ovf (exec_u13 s) (u13Value_eq s) (by omega)

/-! ## Step 14 (R149) -/

/-- The difference of step 14 is the one of `UP` and the signed `B3`, reduced. -/
theorem usub32_toU32_toNat (a b : W32) :
    ((usub32 a (toU32 b)).toNat : Int) = ((a.toNat : Int) - b.toInt) % 4294967296 := by
  have hmod := toNat_eq_toInt_emod b
  rw [toU32_eq, usub32_toNat]
  omega

/-- The product of step 14 is reduced once more. -/
theorem umul32_scaleK_toNat (a : W32) (o : Nat) :
    ((umul32 a (scaleK o)).toNat : Int) = a.toNat * (50000 / 2 ^ o) % 4294967296 := by
  rw [umul32_toNat, scaleK_toNat]
  norm_cast

theorem scaleFactor_pos (o : Byte) : (1 : Int) ≤ 50000 / 2 ^ ossEff o := by
  have hoss := ossEff_le o
  interval_cases ossEff o <;> decide

/-- Settles O36: a nonnegative difference whose product with the scale factor is below `2^32` is itself below it, so
neither reduction changes anything. -/
theorem step14WritesB7Unsigned : Obligations.Step14WritesB7Unsigned := by
  intro s
  have hvalue := umul32_scaleK_toNat (usub32 s.up (toU32 s.b3)) (ossEff s.ce.ossIn)
  rw [usub32_toU32_toNat] at hvalue
  refine ⟨_, hvalue, exec_u14 s, fun hle hfits => hvalue.trans ?exact⟩
  case exact =>
    have hdiff : (0 : Int) ≤ s.up.toNat - s.b3.toInt := by omega
    have hk := scaleFactor_pos s.ce.ossIn
    have hself := le_mul_of_one_le_right hdiff hk
    rw [Int.emod_eq_of_lt hdiff (by omega)]
    exact Int.emod_eq_of_lt (mul_nonneg hdiff (by omega)) (Int.lt_add_one_of_le hfits)

/-! ## Step 16 (R151) -/

theorem u16Square_eq (s : State) : u16Square s = narrowS32 (s.p.toInt / 256 * (s.p.toInt / 256)) := by
  rw [u16Square, smul32, asr32_toInt]
  rfl

/-- A fault of the first assignment leaves `X1` as it was. -/
theorem State.stepU16_of_square_error {s : State} {c : Cause} (h : u16Square s = .error c) :
    s.stepU16 = raiseFault c 16#5 s := by
  unfold State.stepU16
  rw [h]

/-- The second assignment works on the `X1` the first one has made. -/
theorem State.stepU16_of_square_ok {s : State} {v : W32} (h : u16Square s = .ok v) :
    s.stepU16 = (s.withCE { s.ce with x1 := some v }).settle 16#5
      (narrowS32 (v.toInt * 3038) >>= fun m => pure (asr32 m 16))
      fun c w => { c with x1 := some w, step := 17#5 } := by
  unfold State.stepU16
  rw [h]
  rfl

theorem exec_u16_of_square_overflows (s : State) (h : ¬ (s.p.toInt / 256).natAbs ≤ 46340) :
    exec .u16 s = .next (raiseFault .ovf 16#5 s) := by
  have hover := (narrowS32_isExactOrOvf _).2 ((mul_self_fits_iff (s.p.toInt / 256)).not.2 h)
  rw [exec_u16, State.stepU16_of_square_error ((u16Square_eq s).trans hover)]

/-- Step 16 once its square has been assigned, whichever sign `p` has. -/
theorem exec_u16_of_square_fits (s : State) (h : (s.p.toInt / 256).natAbs ≤ 46340) :
    ∃ v : W32, v.toInt = s.p.toInt / 256 * (s.p.toInt / 256) ∧
      (2147483647 < v.toInt * 3038 →
        exec .u16 s = .next (raiseFault .ovf 16#5 (s.withCE { s.ce with x1 := some v }))) ∧
      (v.toInt * 3038 ≤ 2147483647 → ∃ w : W32, w.toInt = v.toInt * 3038 / 65536 ∧
        exec .u16 s = .next (s.withCE { s.ce with x1 := some w, step := 17#5 })) := by
  obtain ⟨v, hok, hint⟩ := (narrowS32_isExactOrOvf _).1 ((mul_self_fits_iff (s.p.toInt / 256)).2 h)
  have hstep := (exec_u16 s).trans (congrArg _ (State.stepU16_of_square_ok ((u16Square_eq s).trans hok)))
  have hnonneg := mul_self_nonneg (s.p.toInt / 256)
  exact ⟨v, hint, fun hover => outcome_raises_ovf hstep rfl (by omega),
    fun hfits => outcome_writes_shifted hstep rfl (by omega)⟩

/-- Settles O39: for `p` not negative the two thresholds are those of `floor(p / 256)` at 46341 and at 841. -/
theorem step16AssignsX1Twice : Obligations.Step16AssignsX1Twice := by
  intro s a
  refine ⟨fun hp => ⟨by omega, fun hlarge => exec_u16_of_square_overflows s (by omega), fun ha => ?square⟩,
    fun hp => ⟨fun hlarge => ?negativeOverflows, fun hsmall => ?negativeFits⟩⟩
  case square =>
    obtain ⟨v, (hint : v.toInt = a * a), hover, hdone⟩ := exec_u16_of_square_fits s (by omega)
    refine ⟨v, hint, fun hlarge => ?overflows, fun hsmall => ?completes⟩
    case overflows =>
      have hsquare : 841 * 841 ≤ a * a := mul_self_le_mul_self (by norm_num) (by omega)
      exact ⟨by omega, hover (by omega)⟩
    case completes =>
      have hsquare : a * a ≤ 840 * 840 := mul_self_le_mul_self (by omega) (by omega)
      have hnonneg := mul_self_nonneg a
      obtain ⟨w, hw, hexec⟩ := hdone (by omega)
      exact ⟨w, hw, by omega, by omega, hexec⟩
  case negativeOverflows =>
    exact exec_u16_of_square_overflows s fun h => absurd ((mul_self_fits_iff a).2 h).2 (by omega)
  case negativeFits =>
    have hnonneg := mul_self_nonneg a
    exact exec_u16_of_square_fits s ((mul_self_fits_iff a).1 ⟨by omega, hsmall⟩)

/-! ## Step 17 (R152) -/

theorem u17Value_eq (s : State) :
    u17Value s = (narrowS32 (-7357 * s.p.toInt) >>= fun m => pure (asr32 m 16)) := rfl

/-- Settles O40: one product, then the shift. -/
theorem step17WritesX2 : Obligations.Step17WritesX2 := by
  intro s m
  exact ⟨fun hlo hhi => by omega, outcome_writes_shifted (exec_u17 s) (u17Value_eq s),
    outcome_raises_ovf (exec_u17 s) (u17Value_eq s)⟩

end Sys2Proof.Machine
end

section
/-! PROOFS. The altitude over the reals (spec/44_altitude.md R170, R171). -/

namespace Sys2Proof.Machine

/-- A pressure that is not negative has one altitude. -/
theorem IsAltitude.unique {p : Int} {h h' : ℝ} (hp : 0 ≤ p) (alt : IsAltitude p h) (alt' : IsAltitude p h') : h = h' :=
  (alt hp).trans (alt' hp).symm

/-- At 101325 Pa the ratio of R170 is 1, and so is its power. -/
theorem isAltitude_101325_zero : IsAltitude 101325 0 := by
  intro _
  have hratio : ((101325 : Int) : ℝ) / 101325 = 1 := by norm_num
  rw [hratio, Real.one_rpow, sub_self, mul_zero]

/-- The exponent of R170 is positive, so its power grows with the pressure and the altitude falls. -/
theorem IsAltitude.lt_of_pressure_lt {p q : Int} {h h' : ℝ} (hp : 0 ≤ p) (hlt : p < q) (alt : IsAltitude p h)
    (alt' : IsAltitude q h') : h' < h := by
  have hpReal : (0 : ℝ) ≤ p := Int.cast_nonneg hp
  have hratio : (p : ℝ) / 101325 < (q : ℝ) / 101325 :=
    div_lt_div_of_pos_right (Int.cast_lt.2 hlt) (by norm_num)
  have hpow : ((p : ℝ) / 101325) ^ ((1 : ℝ) / 5.255) < ((q : ℝ) / 101325) ^ ((1 : ℝ) / 5.255) :=
    Real.rpow_lt_rpow (by positivity) hratio (by norm_num)
  rw [alt hp, alt' (hp.trans hlt.le)]
  linarith

/-- Settles O59: the altitude falls as the pressure grows, and its sign follows by comparison with 101325 Pa, where it
is 0. -/
theorem altitudeDecreasesThroughZero : Obligations.AltitudeDecreasesThroughZero := by
  refine ⟨fun p q _ _ hp hlt altp altq => altp.lt_of_pressure_lt hp.le hlt altq, fun p h hp alt => ⟨?zero, ?below, ?above⟩⟩
  case zero =>
    rintro rfl
    exact alt.unique hp.le isAltitude_101325_zero
  case below =>
    exact fun hlt => alt.lt_of_pressure_lt hp.le hlt isAltitude_101325_zero
  case above =>
    exact fun hlt => isAltitude_101325_zero.lt_of_pressure_lt (by norm_num) hlt alt

end Sys2Proof.Machine
end

section
/-! PROOFS. Fault entry and the fault byte it writes (spec/60_exceptions.md R180, R183). -/

namespace Sys2Proof.Machine

/-- `FINFO` is the cause's code above the 5 bits of the number, so the codes 1, 2 and 3 start at 0x20, 0x40 and 0x60. -/
theorem Cause.toNat_code_append (c : Cause) (n : BitVec 5) :
    (c.code ++ n).toNat = 0x20 * c.code.toNat + n.toNat := by
  rw [BitVec.toNat_append, ← Nat.shiftLeft_add_eq_or_of_lt n.isLt, Nat.shiftLeft_eq, Nat.mul_comm]

/-- Settles O24: the byte written is the cause's code above the number, and `CE.faultEntry` updates five fields. -/
theorem faultEntryWritesOnlyFaultState : Obligations.FaultEntryWritesOnlyFaultState := by
  intro s c n
  refine ⟨c.code ++ n, rfl, s.ce.faultEntry_fstep c n, ?transport, ?div0, ?ovf⟩
  all_goals
    rintro rfl
    exact Cause.toNat_code_append _ n

end Sys2Proof.Machine
end

section
/-! PROOFS. Encoding after decoding and decoding after encoding (spec/30_encoding.md R81 to R85, R87, R91). -/

namespace Sys2Proof

/-! ## Decoding the words a host can issue (R81, R82) -/

@[simp] theorem decodeHost_rdWord (a : Byte) : decodeHost (rdWord a) = .rd a := by
  rw [decodeHost_of_read (rdWord_getLsbD a 16), addrField_rdWord]

@[simp] theorem decodeHost_wrWord {a : Byte} (h : a ≠ 0x17#8) (d : Byte) : decodeHost (wrWord a d) = .wr a d := by
  rw [decodeHost_of_write (wrWord_getLsbD _ _ 16) (by rwa [addrField_wrWord]), addrField_wrWord, dataField_wrWord]

theorem decodeHost_wrWord_command (c : Byte) : decodeHost (wrWord 0x17#8 c) = decodeCommand c := by
  rw [decodeHost_of_command (wrWord_getLsbD _ _ 16) (addrField_wrWord _ _), dataField_wrWord]

/-- Settles O1: a host word by its fields, a micro-step by its number. -/
theorem decodingUndoesEncoding : Obligations.DecodingUndoesEncoding := by
  intro i hwf
  cases i with
  | rd a => exact congrArg _ (decodeHost_rdWord a)
  | wr a d => exact congrArg _ (decodeHost_wrWord (of_decide_eq_true hwf) d)
  | cmdReserved c =>
    exact congrArg _ ((decodeHost_wrWord_command c).trans (decodeCommand_of_three_le (of_decide_eq_true hwf)))
  | ldstep k => exact if_pos (of_decide_eq_true hwf)
  | _ => rfl

/-! ## Encoding what a host word decodes to (R87) -/

/-- A write is put together again from its address and its data. -/
theorem wrWord_fields {t : BitVec 17} (h : t.getLsbD 16 = true) : wrWord (addrField t) (dataField t) = t := by
  apply BitVec.eq_of_getLsbD_eq
  intro i hi
  rw [wrWord_getLsbD, addrField, dataField, BitVec.getLsbD_extractLsb', BitVec.getLsbD_extractLsb']
  interval_cases i <;> simp [h]

/-- A read is put together again from its address, its ignored bits cleared. -/
theorem rdWord_addrField (t : BitVec 17) : rdWord (addrField t) = t &&& 0x0FF00#17 := by
  apply BitVec.eq_of_getLsbD_eq
  intro i hi
  rw [rdWord_getLsbD, addrField, BitVec.getLsbD_extractLsb', BitVec.getLsbD_and]
  interval_cases i <;> simp

theorem encode_decodeCommand (c : Byte) : encode (decodeCommand c) = .host (wrWord 0x17#8 c) := by
  by_cases h : 3 ≤ c.toNat
  case pos => rw [decodeCommand_of_three_le h]; rfl
  case neg =>
    have hc : c = 0x00#8 ∨ c = 0x01#8 ∨ c = 0x02#8 := by bv_omega
    obtain rfl | rfl | rfl := hc <;> rfl

theorem encode_decodeHost_of_write {t : BitVec 17} (h : t.getLsbD 16 = true) : encode (decodeHost t) = .host t := by
  by_cases ha : addrField t = 0x17#8
  case pos => rw [decodeHost_of_command h ha, encode_decodeCommand, ← ha, wrWord_fields h]
  case neg => rw [decodeHost_of_write h ha, encode, wrWord_fields h]

theorem encode_decodeHost_of_read {t : BitVec 17} (h : t.getLsbD 16 = false) :
    encode (decodeHost t) = .host (t &&& 0x0FF00#17) := by
  rw [decodeHost_of_read h, encode, rdWord_addrField]

/-- Every well-formed instruction's word carries its row (opcode_table.json). -/
theorem encode_bits_carry_row (i : Instr) : Laws.EncodingCarriesRow.Statement i := by
  cases i with
  | rd a => exact Laws.EncodingCarriesRow.rd a
  | wr a d => exact Laws.EncodingCarriesRow.wr a d
  | cmdReserved c => exact Laws.EncodingCarriesRow.cmdReserved c
  | ldstep k => exact Laws.EncodingCarriesRow.ldstep k
  | _ => exact fun _ => by decide

/-- Settles O3: a write is the word of its own instruction, which carries the row; of a read the row fixes bit 16 only. -/
theorem encodingUndoesHostDecoding : Obligations.EncodingUndoesHostDecoding := by
  intro t
  cases h : t.getLsbD 16
  case true =>
    have henc := encode_decodeHost_of_write h
    have hrow := encode_bits_carry_row (decodeHost t) (wellFormed_decodeHost t)
    rw [henc] at hrow
    exact ⟨hrow, henc⟩
  case false =>
    refine ⟨?row, encode_decodeHost_of_read h⟩
    rw [decodeHost_of_read h]
    have hbit : t.toNat.testBit 16 = false := h
    change t.toNat &&& 2 ^ 16 = 0
    rw [Nat.and_two_pow, hbit]
    rfl

/-! ## The micro-steps by number (R84, R85) -/

theorem decodePipe_of_in_range (n : BitVec 5) (hlo : 1 ≤ n.toNat) (hhi : n.toNat ≤ 18) :
    ∃ i, decodePipe n = .ok i ∧ encode i = .pipe n := by
  have hsel : ∀ n : BitVec 5, 1 ≤ n.toNat → n.toNat ≤ 18 → (decodePipe n).toOption.map encode = some (.pipe n) := by
    decide
  obtain ⟨i, hi, henc⟩ := Option.map_eq_some_iff.1 (hsel n hlo hhi)
  refine ⟨i, ?_, henc⟩
  cases hd : decodePipe n with
  | ok j => rw [hd] at hi; exact congrArg _ (Option.some.inj hi)
  | error r => rw [hd] at hi; cases hi

theorem decodePipe_of_out_of_range :
    ∀ n : BitVec 5, n.toNat = 0 ∨ 19 ≤ n.toNat → decodePipe n = .error (.noPipelineStep n) := by decide

/-- Settles O4: the pipeline steps one by one, the load steps by the comparison of `decodeLoad`. -/
theorem microStepsAreSelectedByNumber : Obligations.MicroStepsAreSelectedByNumber :=
  ⟨decodePipe_of_in_range, decodePipe_of_out_of_range, fun _ hk => if_pos hk, fun _ hk => if_neg (by omega)⟩

/-- Settles O5, word by word. -/
theorem sampleWordsDecode : Obligations.SampleWordsDecode := by
  unfold Obligations.SampleWordsDecode
  decide

/-! ## The pseudo-instructions (R91) -/

/-- A byte cut out of a number is a quotient modulo 256. -/
theorem extractLsb'_byte {w : Nat} (v : BitVec w) (k : Nat) : v.extractLsb' k 8 = BitVec.ofNat 8 (v.toNat / 2 ^ k) := by
  rw [BitVec.extractLsb', Nat.shiftRight_eq_div_pow]

/-- Settles O6: each pseudo-instruction is a list of `rdWord` and `wrWord`, which decode to their operands. -/
theorem pseudoInstructionsExpand : Obligations.PseudoInstructionsExpand := by
  refine ⟨fun ut up => ?sample, fun n => ⟨BitVec.ofInt 8 n, ?byte, ?setOss⟩, fun a => ?rd32⟩
  case sample =>
    simp [Machine.Script.sample, Machine.Script.wr16, Machine.Script.wr32, Machine.Script.wr, Machine.Script.after,
      extractLsb'_byte]
  case byte =>
    rw [BitVec.toNat_ofInt]
    omega
  case setOss =>
    simp [Machine.Script.setOss, Machine.Script.wr]
  case rd32 =>
    simp [Machine.Script.rd32, Machine.Script.rd, Machine.Script.after]

end Sys2Proof
end

section
/-! PROOFS. One transition: whose turn it is, what it fetches and what it can do (spec/00_scope.md R11, R12,
spec/30_encoding.md R84, R85, spec/70_reset_and_hazards.md R200, R209), and the bits of `STATUS` (spec/10_state.md R32). -/

namespace Sys2Proof.Machine

/-! ## `STATUS` (R32) -/

/-- Settles O15: `STATUS` is put together bit by bit, and three of its bits are views of other state. -/
theorem statusByteLayout : Obligations.StatusByteLayout := by
  intro c
  obtain ⟨h0, h1, h2, h3, h4, h5, h6, h7⟩ := statusBits false c.ldg c.ign c.fault c.done c.busy c.srdy c.cvalid
  refine ⟨h0, ?srdy, ?busy, h3, h4, h5, ?ldg, h7⟩
  case srdy =>
    rw [← c.srdy_iff]
    exact Eq.congr_left h1
  case busy =>
    have hbusy : c.busy = true ↔ c.mode = .loading ∨ c.mode = .computing := by
      rw [c.busy_iff]
      cases c.mode <;> simp
    rw [← hbusy]
    exact Eq.congr_left h2
  case ldg =>
    rw [← c.ldg_iff]
    exact Eq.congr_left h6

/-! ## The step, by turn and fetch -/

theorem State.turn_ne_reset_of_fetch {s : State} {c : Code} (h : s.fetch = some c) : s.turn ≠ .reset := by
  intro hturn
  rw [State.fetch_reset hturn] at h
  cases h

theorem step_of_fetch_ok {s : State} {c : Code} {i : Instr} (hf : s.fetch = some c) (hd : decode c = .ok i) :
    step s = exec i s.tick := by
  have hturn := State.turn_ne_reset_of_fetch hf
  unfold step
  split
  · contradiction
  · rw [hf]
    simp only [hd]

theorem step_of_fetch_error {s : State} {c : Code} {r : Reject} (hf : s.fetch = some c) (hd : decode c = .error r) :
    step s = .fault .sequencerLost := by
  have hturn := State.turn_ne_reset_of_fetch hf
  unfold step
  split
  · contradiction
  · rw [hf]
    simp only [hd]

theorem step_of_fetch_none {s : State} (ht : s.turn = .seq) (hf : s.fetch = none) : step s = .next s.tick := by
  simp only [step, ht, hf]

/-- Settles O11, by `step_of_fetch_ok`. -/
theorem stepRunsDecodedInstruction : Obligations.StepRunsDecodedInstruction :=
  fun s _ _ hf hd => ⟨step_of_fetch_ok hf hd, s.tick_ce, rfl⟩

/-- Settles O12: a host event by its word, the sequencer's turn by `MODE` and what the source makes of the read. -/
theorem fetchFollowsTurnAndMode : Obligations.FetchFollowsTurnAndMode := by
  refine ⟨fun s t es hev => State.fetch_host (State.turn_cons hev), fun s es hev => ?micro⟩
  have hturn : s.turn = .seq := hev.elim State.turn_nil State.turn_cons
  rw [State.fetch_seq hturn]
  refine ⟨State.microCode_computing, ?_, ?_, ?_, ?_, State.microCode_idle⟩
  · exact fun r rs hm ha => State.microCode_loading hm (State.sourceAnswers_some ha)
  · exact fun rs hm ha => State.microCode_waiting hm (State.sourceAnswers_none ha)
  · exact fun hm ha hs => State.microCode_loading hm (by rw [State.sourceAnswers_nil ha, hs]; rfl)
  · exact fun hm ha hs => State.microCode_waiting hm (by rw [State.sourceAnswers_nil ha, hs]; rfl)

/-- Settles O13: with nothing fetched only the move is taken, and a reset gives the read that hangs up. -/
theorem nothingHappensWithoutAnEnabledAgent : Obligations.NothingHappensWithoutAnEnabledAgent := by
  refine ⟨fun s ht hf => ⟨step_of_fetch_none ht hf, s.tick_ce⟩, fun s rs hm ha => ⟨fun ht => ?hangs, fun ht => ?reset⟩⟩
  case hangs =>
    have hnone : s.fetch = none :=
      (State.fetch_seq ht).trans (State.microCode_waiting hm (State.sourceAnswers_none ha))
    exact ⟨s.tick, step_of_fetch_none ht hnone, s.tick_ce, s.ce.busy_iff.2 (by rw [hm]; decide), ha⟩
  case reset =>
    refine ⟨s.tick.applyReset, step_of_reset ht, State.applyReset_ce _, ?_⟩
    rw [State.applyReset_srcAnswers, State.answersAfterReset_loading (s := s.tick) hm, State.tick_srcAnswers, ha, giveUpUnanswered_none]

/-! ## Everything a step can do -/

/-- The kinds of transition (00_scope.md R12). -/
inductive StepKind (s : State) : State → Prop where
  | reset (hturn : s.turn = .reset) : StepKind s s.tick.applyReset
  | host {t : State} (w : BitVec 17) (hturn : s.turn = .host w) (hexec : exec (decodeHost w) s.tick = .next t) :
      StepKind s t
  | waits (hturn : s.turn = .seq) (hnone : s.microCode = none) : StepKind s s.tick
  | load (hturn : s.turn = .seq) (hmode : s.ce.mode = .loading) (hans : s.sourceAnswers = true)
      (hk : s.ce.ldcnt.toNat ≤ 21) : StepKind s (s.tick.loadStep s.ce.ldcnt)
  | pipe {t : State} (i : Instr) (hturn : s.turn = .seq) (hmode : s.ce.mode = .computing)
      (henc : encode i = .pipe s.ce.step) (hexec : exec i s.tick = .next t) : StepKind s t

theorem step_kind {s t : State} (h : step s = .next t) : StepKind s t := by
  cases hturn : s.turn with
  | reset =>
    cases (step_of_reset hturn).symm.trans h
    exact .reset hturn
  | host w => exact .host w hturn ((step_of_fetch_ok (State.fetch_host hturn) rfl).symm.trans h)
  | seq =>
    have hfetch := State.fetch_seq hturn
    cases hmode : s.ce.mode with
    | idle =>
      have hnone := State.microCode_idle hmode
      cases (step_of_fetch_none hturn (hfetch.trans hnone)).symm.trans h
      exact .waits hturn hnone
    | loading =>
      cases hans : s.sourceAnswers with
      | false =>
        have hnone := State.microCode_waiting hmode hans
        cases (step_of_fetch_none hturn (hfetch.trans hnone)).symm.trans h
        exact .waits hturn hnone
      | true =>
        have hcode := hfetch.trans (State.microCode_loading hmode hans)
        by_cases hk : s.ce.ldcnt.toNat ≤ 21
        · cases (step_of_fetch_ok hcode (if_pos hk)).symm.trans h
          exact .load hturn hmode hans hk
        · cases (step_of_fetch_error hcode (if_neg hk)).symm.trans h
    | computing =>
      have hcode := hfetch.trans (State.microCode_computing hmode)
      by_cases hn : 1 ≤ s.ce.step.toNat ∧ s.ce.step.toNat ≤ 18
      · obtain ⟨i, hdec, henc⟩ := decodePipe_of_in_range _ hn.1 hn.2
        exact .pipe i hturn hmode henc ((step_of_fetch_ok hcode hdec).symm.trans h)
      · have hrej := decodePipe_of_out_of_range s.ce.step (by omega)
        cases (step_of_fetch_error hcode hrej).symm.trans h

/-- Every instruction's meaning is a next state (notes/assumptions/10.md). -/
theorem exec_completes (i : Instr) (s : State) : ∃ t, exec i s = .next t := by
  cases i <;> exact ⟨_, rfl⟩

/-- The positions of a legal block select a micro-step (R30, R31). -/
theorem CE.Inv.decode_fetch {s : State} {c : Code} (hinv : s.ce.Inv) (hf : s.fetch = some c) :
    ∃ i, decode c = .ok i := by
  obtain ⟨hstep, -, hldcnt, -⟩ := hinv.position
  cases hturn : s.turn with
  | host w =>
    cases (State.fetch_host hturn).symm.trans hf
    exact ⟨_, rfl⟩
  | seq =>
    rw [State.fetch_seq hturn] at hf
    cases hmode : s.ce.mode with
    | idle => cases (State.microCode_idle hmode).symm.trans hf
    | loading =>
      cases hans : s.sourceAnswers with
      | false => cases (State.microCode_waiting hmode hans).symm.trans hf
      | true =>
        cases (State.microCode_loading hmode hans).symm.trans hf
        exact ⟨_, if_pos hldcnt⟩
    | computing =>
      cases (State.microCode_computing hmode).symm.trans hf
      obtain ⟨hlo, hhi⟩ := hstep hmode
      obtain ⟨i, hdec, -⟩ := decodePipe_of_in_range _ hlo hhi
      exact ⟨i, hdec⟩
  | reset => cases (State.fetch_reset hturn).symm.trans hf

/-- Settles O45: what a legal block fetches decodes, and every instruction's meaning completes. -/
theorem legalMachineNeverStops : Obligations.LegalMachineNeverStops := by
  intro s hinv
  cases hf : s.fetch with
  | none =>
    cases hturn : s.turn with
    | reset => exact ⟨_, step_of_reset hturn⟩
    | seq => exact ⟨_, step_of_fetch_none hturn hf⟩
    | host w => cases (State.fetch_host hturn).symm.trans hf
  | some c =>
    obtain ⟨i, hdec⟩ := hinv.decode_fetch hf
    obtain ⟨t, hexec⟩ := exec_completes i s.tick
    exact ⟨t, (step_of_fetch_ok hf hdec).trans hexec⟩

end Sys2Proof.Machine
end

section
/-! PROOFS. What each kind of transition can do to the block: the host's words, the load micro-step and the pipeline steps
(spec/40_host_access_and_commands.md R100 to R106, spec/60_exceptions.md R183, spec/00_scope.md R9). -/

namespace Sys2Proof.Machine

/-! ## The host's words -/

/-- What a host word can make of the block, and which words can do it (R100 to R106). -/
inductive HostEffect (c : CE) (w : BitVec 17) : CE → Prop where
  | unchanged (hw : w.getLsbD 16 = false ∨ w = 0x11700#17) : HostEffect c w c
  | ignored (hw : w.getLsbD 16 = true) (hnop : w ≠ 0x11700#17) : HostEffect c w { c with ign := true }
  | level (d : Byte) (hacc : c.accepts = true) : HostEffect c w { c with ossIn := d }
  | sample (k : Fin 6) (d : Byte) (hacc : c.accepts = true)
      (hw : decodeHost w = .wr (BitVec.ofNat 8 (0x18 + k.val)) d) : HostEffect c w (c.storeSample k.val d)
  | load (hw : w = 0x11701#17) (hacc : c.accepts = true) (hv : c.cvalid = false) :
      HostEffect c w { c with mode := .loading, ldcnt := 0#5 }
  | compensate (hw : w = 0x11702#17) (hacc : c.accepts = true) (hv : c.cvalid = true) (hsrdy : c.srdy = true) :
      HostEffect c w { c with mode := .computing, step := 1#5, done := false,
                              sw := #v[false, false, false, false, false, false] }

/-- A write to `CMD` is known by its data. -/
theorem eq_wrWord_command {w : BitVec 17} (h : w.getLsbD 16 = true) (ha : addrField w = 0x17#8) :
    w = wrWord 0x17#8 (dataField w) := by
  rw [← ha, wrWord_fields h]

theorem hostEffect_of_write {s : State} {w : BitVec 17} (h : w.getLsbD 16 = true) (ha : addrField w ≠ 0x17#8) :
    HostEffect s.ce w (s.writeByte (addrField w) (dataField w)).ce := by
  have hnop : w ≠ 0x11700#17 := by
    rintro rfl
    exact ha (by decide)
  obtain hign | ⟨hacc, -, hlevel⟩ | ⟨hacc, hlo, hhi, hsample⟩ := s.writeByte_cases (addrField w) (dataField w)
  · rw [hign]
    exact .ignored h hnop
  · rw [hlevel]
    exact .level _ hacc
  · rw [hsample]
    refine .sample ⟨(addrField w).toNat - 0x18, by omega⟩ (dataField w) hacc ?_
    rw [decodeHost_of_write h ha]
    congr
    apply BitVec.eq_of_toNat_eq
    simp
    omega

theorem hostEffect_of_command {s t : State} {w : BitVec 17} (h : w.getLsbD 16 = true) (ha : addrField w = 0x17#8)
    (hexec : exec (decodeHost w) s = .next t) : HostEffect s.ce w t.ce := by
  rw [decodeHost_of_command h ha] at hexec
  have hword := eq_wrWord_command h ha
  generalize dataField w = d at hexec hword
  by_cases hd : 3 ≤ d.toNat
  case pos =>
    rw [decodeCommand_of_three_le hd, exec_cmdReserved] at hexec
    cases hexec
    refine .ignored h ?_
    rintro rfl
    have hzero : d = dataField 0x11700#17 := by rw [hword, dataField_wrWord]
    rw [hzero] at hd
    exact absurd hd (by decide)
  case neg =>
    have hc : d = 0x00#8 ∨ d = 0x01#8 ∨ d = 0x02#8 := by bv_omega
    obtain rfl | rfl | rfl := hc
    · cases hexec
      exact .unchanged (.inr hword)
    · cases hexec
      have hnop : w ≠ 0x11700#17 := by rw [hword]; decide
      obtain hign | ⟨hacc, hv, hload⟩ := s.loadCommand_cases
      · rw [hign]
        exact .ignored h hnop
      · rw [hload]
        exact .load hword hacc hv
    · cases hexec
      have hnop : w ≠ 0x11700#17 := by rw [hword]; decide
      obtain hign | ⟨hacc, hv, hsrdy, hcomp⟩ := s.compensateCommand_cases
      · rw [hign]
        exact .ignored h hnop
      · rw [hcomp]
        exact .compensate hword hacc hv hsrdy

/-- Every host word, by the split of R87. -/
theorem hostEffect_of_exec {s t : State} {w : BitVec 17} (hexec : exec (decodeHost w) s = .next t) :
    HostEffect s.ce w t.ce := by
  cases h : w.getLsbD 16 with
  | false =>
    rw [decodeHost_of_read h] at hexec
    cases hexec
    exact .unchanged (.inl h)
  | true =>
    by_cases ha : addrField w = 0x17#8
    · exact hostEffect_of_command h ha hexec
    · rw [decodeHost_of_write h ha] at hexec
      cases hexec
      exact hostEffect_of_write h ha

/-! ## The load micro-step -/

/-- What a load micro-step can make of a block whose next read is `LDCNT` (R104): a transport fault, a byte kept, or the
commit of the whole file. -/
inductive LoadEffect (c : CE) : CE → Prop where
  | fails : LoadEffect c (c.faultEntry .transport c.ldcnt)
  | keeps (d : Byte) (hlt : c.ldcnt.toNat < 21) :
      LoadEffect c { c with ldbuf := c.ldbuf.setIfInBounds c.ldcnt.toNat (some d), ldcnt := c.ldcnt + 1#5 }
  | commits (buf : Vector (Option Byte) 22) (f : Vector Half 11) (hlast : c.ldcnt = 21#5) :
      LoadEffect c { c with ldbuf := buf, coef := some f, cvalid := true, mode := .idle, ldcnt := 0#5 }

theorem loadEffect_of_loadStep (s : State) (hk : s.ce.ldcnt.toNat ≤ 21) :
    LoadEffect s.ce (s.loadStep s.ce.ldcnt).ce := by
  obtain ⟨-, hfail⟩ | ⟨d, -, htake⟩ := s.loadStep_cases s.ce.ldcnt
  · rw [hfail]
    exact .fails
  · rw [htake]
    unfold CE.takeLoadByte
    by_cases hlt : s.ce.ldcnt.toNat < 21
    · rw [if_pos hlt]
      exact .keeps d hlt
    · rw [if_neg hlt]
      exact .commits _ _ (by bv_omega)

/-! ## No arithmetic raises a transport fault (60_exceptions.md R180) -/

def NeverTransport (r : Except Cause W32) : Prop := r ≠ .error .transport

@[simp] theorem neverTransport_ok (v : W32) : NeverTransport (.ok v) := nofun

@[simp] theorem neverTransport_pure (v : W32) : NeverTransport (pure v) := nofun

@[simp] theorem neverTransport_narrowS32 (r : Int) : NeverTransport (narrowS32 r) := by
  obtain ⟨-, v, hv, -⟩ | ⟨-, hv⟩ := narrowS32_cases r <;> rw [hv] <;> nofun

@[simp] theorem neverTransport_sadd32 (a b : W32) : NeverTransport (sadd32 a b) := neverTransport_narrowS32 _
@[simp] theorem neverTransport_ssub32 (a b : W32) : NeverTransport (ssub32 a b) := neverTransport_narrowS32 _
@[simp] theorem neverTransport_smul32 (a b : W32) : NeverTransport (smul32 a b) := neverTransport_narrowS32 _
@[simp] theorem neverTransport_sshl32 (a : W32) (k : Nat) : NeverTransport (sshl32 a k) := neverTransport_narrowS32 _

@[simp] theorem neverTransport_sdiv32 (a b : W32) : NeverTransport (sdiv32 a b) := by
  by_cases hb : b.toInt = 0
  · rw [sdiv32_of_zero a hb]; nofun
  · rw [sdiv32_of_ne_zero a hb]; exact neverTransport_narrowS32 _

@[simp] theorem neverTransport_udiv32 (a b : W32) : NeverTransport (udiv32 a b) := by
  by_cases hb : b.toNat = 0
  · rw [udiv32_of_zero a hb]; nofun
  · obtain ⟨v, hv, -⟩ := udiv32_of_ne_zero a hb
    rw [hv]; nofun

@[simp] theorem neverTransport_toS32 (u : W32) : NeverTransport (toS32 u) := by
  unfold toS32
  split <;> nofun

@[simp] theorem NeverTransport.bind {r : Except Cause W32} {f : W32 → Except Cause W32} (hr : NeverTransport r)
    (hf : ∀ v, NeverTransport (f v)) : NeverTransport (r >>= f) := by
  cases r with
  | ok v => exact hf v
  | error k => exact fun h => hr (congrArg Except.error (Except.error.inj h))

@[simp] theorem NeverTransport.map {r : Except Cause W32} (hr : NeverTransport r) (f : W32 → W32) :
    NeverTransport (f <$> r) := hr.bind fun v => neverTransport_pure (f v)

@[simp] theorem neverTransport_u15Quotient (a b : W32) : NeverTransport (u15Quotient a b) := by
  unfold u15Quotient
  split <;> simp

@[simp] theorem neverTransport_u9Value (s : State) : NeverTransport (u9Value s) := by
  rw [u9Value_eq]
  refine .bind (neverTransport_narrowS32 _) fun b => ?_
  simp

/-! ## The pipeline steps -/

/-- The block but for what the steps before the last one write (R27, R29, R30). -/
def CE.SameButForRun (c c' : CE) : Prop :=
  c' = { c with x1 := c'.x1, x2 := c'.x2, x3 := c'.x3, b3 := c'.b3, b4 := c'.b4, b5 := c'.b5, b6 := c'.b6, b7 := c'.b7,
                p := c'.p, temp := c'.temp, step := c'.step }

/-- What a pipeline step can make of a computing block: a fault of its own number, after which only `X1` may differ (R151,
R183); its register written and the next step selected; at the last step, completion (R154). -/
inductive PipeEffect (c : CE) : CE → Prop where
  | faults (k : Cause) (x : Option W32) (hk : k ≠ .transport) : PipeEffect c ({ c with x1 := x }.faultEntry k c.step)
  | advances {c' : CE} (hframe : c.SameButForRun c') (hstep : c'.step = c.step + 1#5) (hlt : c.step.toNat < 18)
      (hwork : c.WorkLegal → c'.WorkLegal) : PipeEffect c c'
  | completes (v : W32) (hlast : c.step = 18#5) : PipeEffect c (CE.complete { c with press := some v })

theorem pipeEffect_of_settle {s : State} {n : BitVec 5} {r : Except Cause W32} {put : CE → W32 → CE} (hn : s.ce.step = n)
    (hr : NeverTransport r) (hput : ∀ v, PipeEffect s.ce (put s.ce v)) : PipeEffect s.ce (s.settle n r put).ce := by
  obtain ⟨v, -, hok⟩ | ⟨k, hk, herr⟩ := s.settle_cases n r put
  · rw [hok]
    exact hput v
  · rw [herr, ← hn]
    exact .faults k s.ce.x1 fun h => hr (by rw [hk, h])

/-- Every step but the last and the 16th ends by writing one register and selecting the next step. -/
theorem pipeEffect_of_write {s : State} {n : BitVec 5} {r : Except Cause W32} {put : CE → W32 → CE} (hn : s.ce.step = n)
    (hlt : n.toNat < 18) (hr : NeverTransport r) (hframe : ∀ v, s.ce.SameButForRun (put s.ce v))
    (hstep : ∀ v, (put s.ce v).step = n + 1#5) (hwork : ∀ v, s.ce.WorkLegal → (put s.ce v).WorkLegal) :
    PipeEffect s.ce (s.settle n r put).ce :=
  pipeEffect_of_settle hn hr fun v => .advances (hframe v) (hn.symm ▸ hstep v) (hn.symm ▸ hlt) (hwork v)

theorem pipeEffect_of_stepU16 {s : State} (hn : s.ce.step = 16#5) : PipeEffect s.ce s.stepU16.ce := by
  have hsquare : NeverTransport (u16Square s) := by simp [u16Square]
  obtain ⟨k, hk, hstep⟩ | ⟨v, k, -, hk, hstep⟩ | ⟨v, w, -, -, hstep⟩ := s.stepU16_cases
  · rw [hstep, ← hn]
    exact .faults k s.ce.x1 fun h => hsquare (by rw [hk, h])
  · have hvalue : NeverTransport (u16Value (s.withCE { s.ce with x1 := some v })) := by simp [u16Value]
    rw [hstep, ← hn]
    exact .faults k (some v) fun h => hvalue (by rw [hk, h])
  · rw [hstep]
    refine .advances rfl (by rw [hn]; rfl) (by rw [hn]; decide) fun hwork hm => ?_
    have := hwork hm
    simp_all

theorem pipeEffect_of_exec {s t : State} {i : Instr} (henc : encode i = .pipe s.ce.step)
    (hexec : exec i s = .next t) : PipeEffect s.ce t.ce := by
  cases i with
  | rd | wr | nop | load | compensate | cmdReserved | ldstep => cases henc
  | u18 =>
    have hn := (Code.pipe.inj henc).symm
    cases hexec
    exact pipeEffect_of_settle hn (by simp [u18Value]) fun v => .completes v hn
  | u16 =>
    have hn := (Code.pipe.inj henc).symm
    cases hexec
    exact pipeEffect_of_stepU16 hn
  | _ =>
    have hn := (Code.pipe.inj henc).symm
    cases hexec
    refine pipeEffect_of_write hn (by decide) ?value (fun _ => rfl) (fun _ => rfl) fun v hwork hm => ?work
    case value =>
      simp [u1Value, u2Value, u3Value, u4Value, u5Value, u6Value, u7Value, u8Value, u10Value, u11Value, u12Value,
        u13Value, u14Value, u15Value, u17Value]
    case work =>
      have hheld := hwork hm
      simp_all

end Sys2Proof.Machine
end

section
/-! PROOFS. The legal states: reset is legal and every kind of transition keeps legality (spec/10_state.md R21, R26, R30 to R33,
R36), and what follows from it for the status bits, the coefficients and a faulted or busy block. -/

namespace Sys2Proof.Machine

/-! ## Reset -/

theorem CE.reset_inv : CE.reset.Inv where
  flags := by decide
  finfo := by decide
  coef := by decide
  position := by decide
  sample := by decide
  load := by decide
  work := by decide
  result := by decide

/-- Settles O43, by evaluation of the one block. -/
theorem resetStateIsLegal : Obligations.ResetStateIsLegal := ⟨CE.reset_inv, by decide⟩

/-! ## What legality says of a block by its mode -/

section Modes
variable {c : CE} (h : c.Inv)
include h

theorem CE.Inv.fault_eq_false_of_busy (hm : c.mode ≠ .idle) : c.fault = false := by
  have hbusy := c.busy_iff.2 hm
  have hflags := h.flags.1
  simpa [hbusy] using hflags

theorem CE.Inv.done_eq_false_of_busy (hm : c.mode ≠ .idle) : c.done = false := by
  have hbusy := c.busy_iff.2 hm
  have hflags := h.flags.2.1
  simpa [hbusy] using hflags

theorem CE.Inv.done_eq_false_of_fault (hf : c.fault = true) : c.done = false := by
  have hflags := h.flags.2.2.1
  simpa [hf] using hflags

theorem CE.Inv.mode_eq_idle_of_fault (hf : c.fault = true) : c.mode = .idle := by
  by_contra hm
  rw [h.fault_eq_false_of_busy hm] at hf
  cases hf

theorem CE.Inv.done_eq_false_of_not_cvalid (hv : c.cvalid = false) : c.done = false := by
  by_contra hd
  have := h.flags.2.2.2 (by simpa using hd)
  rw [hv] at this
  cases this

theorem CE.Inv.cvalid_of_loading (hm : c.mode = .loading) : c.cvalid = false := h.coef.2.1 hm

theorem CE.Inv.cvalid_of_computing (hm : c.mode = .computing) : c.cvalid = true := h.coef.2.2 hm

theorem CE.Inv.finfo_of_not_fault (hf : c.fault = false) : c.finfo = 0x00#8 := h.finfo.1.1 hf

theorem CE.Inv.step_range (hm : c.mode = .computing) : 1 ≤ c.step.toNat ∧ c.step.toNat ≤ 18 := h.position.1 hm

theorem CE.Inv.step_eq_zero (hm : c.mode ≠ .computing) : c.step = 0#5 := h.position.2.1 hm

theorem CE.Inv.ldcnt_le : c.ldcnt.toNat ≤ 21 := h.position.2.2.1

theorem CE.Inv.ldcnt_eq_zero (hm : c.mode ≠ .loading) : c.ldcnt = 0#5 := h.position.2.2.2 hm

end Modes

/-! ## Fault entry (R183) -/

/-- `X1` matters to legality only while computing. -/
theorem CE.Inv.with_x1 {c : CE} (h : c.Inv) (hm : c.mode ≠ .computing) (x : Option W32) : ({ c with x1 := x } : CE).Inv :=
  { h with work := fun hc => absurd hc hm }

/-- A fault with a number that belongs to its cause leaves a legal block. -/
theorem CE.Inv.faultEntry {c : CE} (h : c.Inv) (hm : c.mode ≠ .idle) {k : Cause} {n : BitVec 5}
    (htransport : k = .transport → n.toNat ≤ 21 ∧ c.cvalid = false)
    (harith : k ≠ .transport → 1 ≤ n.toNat ∧ n.toNat ≤ 18 ∧ c.cvalid = true) : (c.faultEntry k n).Inv := by
  have hdone := h.done_eq_false_of_busy hm
  have hcause := c.faultEntry_cause k n
  have hfstep := c.faultEntry_fstep k n
  have hne : (c.faultEntry k n).finfo ≠ 0x00#8 := by
    have hcode := Cause.toNat_code_append k n
    intro hz
    rw [CE.faultEntry_finfo] at hz
    rw [hz] at hcode
    cases k <;> simp [Cause.code] at hcode <;> omega
  refine ⟨⟨rfl, by simp [hdone], by simp [hdone], by simp [hdone]⟩, ⟨by simpa using hne, fun _ => ?_⟩,
    ⟨h.coef.1, nofun, nofun⟩, ⟨nofun, fun _ => rfl, by simp, fun _ => rfl⟩, ⟨h.sample.1, nofun⟩, nofun, nofun,
    by simp [CE.ResultLegal, hdone]⟩
  rw [hcause, hfstep]
  cases k with
  | transport => simpa [Cause.code] using htransport rfl
  | div0 => simpa [Cause.code] using harith nofun
  | ovf => simpa [Cause.code] using harith nofun

/-! ## The host's words -/

theorem CE.Inv.storeSample {c : CE} (h : c.Inv) (hacc : c.accepts = true) (k : Fin 6) (d : Byte) :
    (c.storeSample k.val d).Inv := by
  obtain ⟨-, hidle⟩ := c.accepts_iff.1 hacc
  refine { h with sample := ⟨fun j hj => ?_, fun hm => ?_⟩ }
  · rw [CE.storeSample_eq_set] at hj ⊢
    by_cases hjk : k = j
    · simp [hjk]
    · have hne : k.val ≠ j.val := fun he => hjk (Fin.ext he)
      simp [hne] at hj ⊢
      exact h.sample.1 j hj
  · exact absurd hm (by simp [hidle])

theorem HostEffect.inv {c c' : CE} {w : BitVec 17} (he : HostEffect c w c') (h : c.Inv) : c'.Inv := by
  cases he with
  | unchanged => exact h
  | ignored | level => exact { h with }
  | sample k d hacc => exact h.storeSample hacc k d
  | load hw hacc hv =>
    obtain ⟨hfault, hidle⟩ := c.accepts_iff.1 hacc
    have hdone := h.done_eq_false_of_not_cvalid hv
    have hstep := h.step_eq_zero (by rw [hidle]; decide)
    exact { h with
      flags := by simp [CE.FlagsLegal, hfault, hdone]
      coef := ⟨h.coef.1, fun _ => hv, nofun⟩
      position := ⟨nofun, fun _ => hstep, by simp, nofun⟩
      sample := ⟨h.sample.1, nofun⟩
      load := fun _ k hk => absurd hk (by simp)
      work := nofun }
  | compensate hw hacc hv hsrdy =>
    obtain ⟨hfault, hidle⟩ := c.accepts_iff.1 hacc
    have hldcnt := h.ldcnt_eq_zero (by rw [hidle]; decide)
    have hsample := fun k => h.sample.1 k (c.srdy_iff.1 hsrdy k)
    exact { h with
      flags := by simp [CE.FlagsLegal, hfault]
      coef := ⟨h.coef.1, nofun, fun _ => hv⟩
      position := ⟨fun _ => by simp, nofun, h.ldcnt_le, fun _ => hldcnt⟩
      sample := ⟨fun k hk => hsample k, fun _ => hsample⟩
      load := nofun
      work := fun _ => by simp
      result := nofun }

/-! ## The load micro-step -/

theorem LoadEffect.inv {c c' : CE} (he : LoadEffect c c') (hm : c.mode = .loading) (h : c.Inv) : c'.Inv := by
  have hne : c.mode ≠ .idle := by rw [hm]; decide
  have hv := h.cvalid_of_loading hm
  have hfault := h.fault_eq_false_of_busy hne
  have hdone := h.done_eq_false_of_busy hne
  cases he with
  | fails => exact h.faultEntry hne (fun _ => ⟨h.ldcnt_le, hv⟩) (fun hk => absurd rfl hk)
  | keeps d hlt =>
    refine { h with
      position := ⟨h.position.1, h.position.2.1, by bv_omega, fun hl => absurd hm hl⟩
      load := fun _ k hk => ?held }
    case held =>
      by_cases hkk : c.ldcnt.toNat = k.val
      · simp [hkk]
      · simp [hkk]
        exact h.load hm k (by bv_omega)
  | commits buf f hlast =>
    have hstep := h.step_eq_zero (by rw [hm]; decide)
    exact { h with
      flags := by simp [CE.FlagsLegal, hfault, CE.busy]
      finfo := ⟨h.finfo.1, fun hf => absurd hf (by simp [hfault])⟩
      coef := ⟨rfl, nofun, nofun⟩
      position := ⟨nofun, fun _ => hstep, by simp, fun _ => rfl⟩
      sample := ⟨h.sample.1, nofun⟩
      load := nofun
      work := nofun }

/-! ## The pipeline steps -/

theorem PipeEffect.inv {c c' : CE} (he : PipeEffect c c') (hm : c.mode = .computing) (h : c.Inv) : c'.Inv := by
  have hne : c.mode ≠ .idle := by rw [hm]; decide
  have hv := h.cvalid_of_computing hm
  have hfault := h.fault_eq_false_of_busy hne
  have hdone := h.done_eq_false_of_busy hne
  obtain ⟨hlo, hhi⟩ := h.step_range hm
  cases he with
  | faults k x hk =>
    have hinv : (c.faultEntry k c.step).Inv := h.faultEntry hne (fun ht => absurd ht hk) fun _ => ⟨hlo, hhi, hv⟩
    exact hinv.with_x1 (by simp) x
  | advances hframe hstep hlt hwork =>
    rw [hframe]
    exact { h with
      position := ⟨fun _ => by bv_omega, fun hc => absurd hm hc, h.position.2.2⟩
      work := hframe ▸ hwork h.work
      result := by simp [CE.ResultLegal, hdone] }
  | completes v hlast =>
    have htemp := (h.work hm).2.2.2.1 (by rw [hlast]; decide)
    have hldcnt := h.ldcnt_eq_zero (by rw [hm]; decide)
    exact { h with
      flags := by simp [CE.FlagsLegal, hfault, hv, CE.busy]
      coef := ⟨h.coef.1, nofun, nofun⟩
      position := ⟨nofun, fun _ => rfl, h.ldcnt_le, fun _ => hldcnt⟩
      sample := ⟨h.sample.1, nofun⟩
      load := nofun
      work := nofun
      result := fun _ => ⟨htemp, rfl⟩ }

/-! ## Every step -/

/-- Settles O44, by the kinds of transition. -/
theorem everyStepKeepsLegality : Obligations.EveryStepKeepsLegality := by
  intro s t hinv hstep
  cases step_kind hstep with
  | reset => exact CE.reset_inv
  | host w _ hexec => exact (hostEffect_of_exec hexec).inv hinv
  | waits => exact hinv
  | load _ hmode _ hk => exact (loadEffect_of_loadStep s.tick hk).inv hmode hinv
  | pipe i _ hmode henc hexec => exact (pipeEffect_of_exec (s := s.tick) henc hexec).inv hmode hinv

/-! ## A faulted and a busy block (R108, R184, R203) -/

theorem HostEffect.of_not_accepts {c c' : CE} {w : BitVec 17} (he : HostEffect c w c') (hacc : ¬ c.accepts = true) :
    ((w.getLsbD 16 = false ∨ w = 0x11700#17) ∧ c' = c) ∨
      ((w.getLsbD 16 = true ∧ w ≠ 0x11700#17) ∧ c' = { c with ign := true }) := by
  cases he with
  | unchanged hw => exact .inl ⟨hw, rfl⟩
  | ignored hw hnop => exact .inr ⟨⟨hw, hnop⟩, rfl⟩
  | level d hacc' => exact absurd hacc' hacc
  | sample k d hacc' => exact absurd hacc' hacc
  | load hw hacc' => exact absurd hacc' hacc
  | compensate hw hacc' => exact absurd hacc' hacc

theorem CE.not_accepts_of_busy {c : CE} (h : c.busy = true) : ¬ c.accepts = true := by
  simp [CE.accepts, h]

theorem CE.not_accepts_of_fault {c : CE} (h : c.fault = true) : ¬ c.accepts = true := by
  simp [CE.accepts, h]

/-- Settles O50: a faulted block is idle and accepts nothing. -/
theorem faultedBlockChangesOnlyIgn : Obligations.FaultedBlockChangesOnlyIgn := by
  intro s hinv hfault hturn
  have hidle := hinv.mode_eq_idle_of_fault hfault
  obtain ⟨t, hstep⟩ := legalMachineNeverStops s hinv
  refine ⟨t, hstep, ?_⟩
  cases step_kind hstep with
  | reset hreset => contradiction
  | host w _ hexec =>
    have heffect := hostEffect_of_exec (s := s.tick) hexec
    exact (heffect.of_not_accepts (CE.not_accepts_of_fault hfault)).imp And.right And.right
  | waits => exact .inl rfl
  | load _ hmode => cases hidle.symm.trans hmode
  | pipe _ _ hmode => cases hidle.symm.trans hmode

/-- A host word is always fetched and always completes. -/
theorem step_of_host {s : State} {w : BitVec 17} (hturn : s.turn = .host w) :
    ∃ t, step s = .next t ∧ exec (decodeHost w) s.tick = .next t := by
  obtain ⟨t, hexec⟩ := exec_completes (decodeHost w) s.tick
  exact ⟨t, (step_of_fetch_ok (State.fetch_host hturn) rfl).trans hexec, hexec⟩

/-- Settles O51: a busy block accepts nothing, and which words set `IGN` is read off the word. -/
theorem hostCannotDisturbABusyBlock : Obligations.HostCannotDisturbABusyBlock := by
  intro s w hbusy hturn
  obtain ⟨t, hstep, hexec⟩ := step_of_host hturn
  have heffect := hostEffect_of_exec (s := s.tick) hexec
  refine ⟨t, hstep, ?_⟩
  obtain ⟨hw, hce⟩ | ⟨⟨hw, hnop⟩, hce⟩ := heffect.of_not_accepts (CE.not_accepts_of_busy hbusy)
  · refine ⟨fun _ => hce, fun hwrite hne => ?_⟩
    rcases hw with hw | hw
    · cases hw.symm.trans hwrite
    · contradiction
  · refine ⟨fun hread => ?_, fun _ _ => hce⟩
    rcases hread with hr | hr
    · cases hr.symm.trans hw
    · contradiction

/-! ## The coefficients (R21) -/

theorem HostEffect.keeps_coef {c c' : CE} {w : BitVec 17} (he : HostEffect c w c') :
    c'.cvalid = c.cvalid ∧ c'.coef = c.coef := by
  cases he <;> exact ⟨rfl, rfl⟩

theorem PipeEffect.keeps_coef {c c' : CE} (he : PipeEffect c c') : c'.cvalid = c.cvalid ∧ c'.coef = c.coef := by
  cases he with
  | faults => exact ⟨rfl, rfl⟩
  | advances hframe => rw [hframe]; exact ⟨rfl, rfl⟩
  | completes => exact ⟨rfl, rfl⟩

/-- Settles O49: only a load writes the file, and a load runs without one. -/
theorem loadedCoefficientsAreImmutable : Obligations.LoadedCoefficientsAreImmutable := by
  intro s t hinv hv hturn hstep
  rw [← hv]
  cases step_kind hstep with
  | reset hreset => contradiction
  | host w _ hexec => exact (hostEffect_of_exec hexec).keeps_coef
  | waits => exact ⟨rfl, rfl⟩
  | load _ hmode => cases (hinv.cvalid_of_loading hmode).symm.trans hv
  | pipe i _ _ henc hexec => exact (pipeEffect_of_exec (s := s.tick) henc hexec).keeps_coef

/-! ## The status bits (R32) -/

/-- A sample byte written does not take `SRDY` away. -/
theorem CE.srdy_storeSample {c : CE} (h : c.srdy = true) (k : Fin 6) (d : Byte) : (c.storeSample k.val d).srdy = true := by
  rw [CE.srdy_iff] at h ⊢
  intro j
  rw [CE.storeSample_eq_set]
  by_cases hkj : k.val = j.val
  · simp [hkj]
  · simp [hkj]
    exact h j

/-- Settles O48: every kind of transition, with the mode it starts from; it gives all the bits. -/
theorem statusBitsChangeOnlyAsListed : Obligations.StatusBitsChangeOnlyAsListed := by
  intro s t hinv hstep
  cases step_kind hstep with
  | reset hturn => simp [hturn, CE.reset, CE.srdy, CE.busy, CE.ldg]
  | waits => simp +contextual
  | host w hturn hexec =>
    have heffect : HostEffect s.ce w t.ce := hostEffect_of_exec (s := s.tick) hexec
    generalize s.ce = c at heffect ⊢
    generalize t.ce = c' at heffect ⊢
    cases heffect with
    | unchanged => simp +contextual
    | ignored hw hnop => simp +contextual [hturn, hw, hnop, CE.srdy, CE.busy, CE.ldg]
    | level => simp +contextual [CE.srdy, CE.busy, CE.ldg]
    | sample k d hacc hw =>
      have hrises : ∃ (k : Fin 6) (d : Byte), ∃ w : BitVec 17, s.turn = .host w ∧
          decodeHost w = .wr (BitVec.ofNat 8 (0x18 + k.val)) d := ⟨k, d, w, hturn, hw⟩
      simp +contextual [hrises, CE.srdy_storeSample, CE.busy, CE.ldg]
    | load hw hacc =>
      obtain ⟨-, hidle⟩ := c.accepts_iff.1 hacc
      simp +contextual [hturn, hw, hidle, CE.srdy, CE.busy, CE.ldg]
    | compensate hw hacc =>
      obtain ⟨-, hidle⟩ := c.accepts_iff.1 hacc
      simp +contextual [hturn, hw, hidle, CE.srdy, CE.busy, CE.ldg]
  | load hturn hmode _ hk =>
    have heffect : LoadEffect s.ce (s.tick.loadStep s.ce.ldcnt).ce := loadEffect_of_loadStep s.tick hk
    generalize (s.tick.loadStep s.ce.ldcnt).ce = c' at heffect ⊢
    cases heffect with
    | fails | keeps => simp +contextual [hturn, hmode, CE.srdy, CE.busy, CE.ldg]
    | commits buf f hlast => simp +contextual [hturn, hmode, hlast, CE.srdy, CE.busy, CE.ldg]
  | pipe i hturn hmode henc hexec =>
    have heffect : PipeEffect s.ce t.ce := pipeEffect_of_exec (s := s.tick) henc hexec
    generalize t.ce = c' at heffect ⊢
    cases heffect with
    | faults => simp +contextual [hturn, hmode, CE.srdy, CE.busy, CE.ldg]
    | advances hframe =>
      rw [hframe]
      simp +contextual [CE.srdy, CE.busy, CE.ldg]
    | completes v hlast => simp +contextual [hturn, hmode, hlast, CE.srdy, CE.busy, CE.ldg]

end Sys2Proof.Machine
end

section
/-! PROOFS. Pipeline steps 15 and 18 and the final correction (spec/43_compensate_pressure.md R150, R153, R154,
spec/90_conflicts.md C10). -/

namespace Sys2Proof.Machine

/-! ## Step 15 (R150) -/

theorem exec_u15 (s : State) :
    exec .u15 s = .next (s.settle 15#5 (u15Value s) fun c v => { c with p := some v, step := 16#5 }) := rfl

/-- The quotient of step 15 as an unsigned number: the doubling is made before the division or after it. -/
def u15Result (b7 b4 : Nat) : Nat := if b7 < 2147483648 then 2 * b7 / b4 else (2 * (b7 / b4)) % 4294967296

theorem u15Quotient_of_zero (b7 : W32) {b4 : W32} (h : b4.toNat = 0) : u15Quotient b7 b4 = .error .div0 := by
  unfold u15Quotient
  split
  · exact udiv32_of_zero _ h
  · rw [udiv32_of_zero _ h, error_bind]

theorem u15Quotient_of_ne_zero (b7 : W32) {b4 : W32} (h : b4.toNat ≠ 0) :
    ∃ v : W32, u15Quotient b7 b4 = .ok v ∧ v.toNat = u15Result b7.toNat b4.toNat := by
  unfold u15Quotient u15Result
  split
  case isTrue hlow =>
    obtain ⟨v, hv, hint⟩ := udiv32_of_ne_zero (umul32 b7 2#32) h
    refine ⟨v, hv, ?_⟩
    rw [hint, umul32_toNat, BitVec.toNat_ofNat, Nat.mul_comm]
    congr 1
    omega
  case isFalse hhigh =>
    obtain ⟨v, hv, hint⟩ := udiv32_of_ne_zero b7 h
    refine ⟨umul32 v 2#32, by rw [hv, ok_bind]; rfl, ?_⟩
    rw [umul32_toNat, hint, BitVec.toNat_ofNat, Nat.mul_comm]
    rfl

theorem u15Value_of_zero {s : State} (h : s.b4.toNat = 0) : u15Value s = .error .div0 := by
  rw [u15Value, u15Quotient_of_zero _ h, error_bind]

/-- With a divisor, step 15 narrows its quotient. -/
theorem u15Value_of_ne_zero {s : State} (h : s.b4.toNat ≠ 0) :
    (2147483648 ≤ u15Result s.b7.toNat s.b4.toNat → u15Value s = .error .ovf) ∧
      (u15Result s.b7.toNat s.b4.toNat < 2147483648 →
        ∃ v : W32, u15Value s = .ok v ∧ v.toInt = u15Result s.b7.toNat s.b4.toNat) := by
  obtain ⟨q, hq, hint⟩ := u15Quotient_of_ne_zero s.b7 h
  rw [u15Value, hq, ok_bind, ← hint]
  refine ⟨fun hlarge => if_pos hlarge, fun hsmall => ⟨q, if_neg (by omega), toInt_of_lt hsmall⟩⟩

/-- Twice a floor is the floor of twice the quotient, or 1 less. -/
theorem two_mul_div_cases (a b : Nat) (hb : 0 < b) : 2 * (a / b) = 2 * a / b ∨ 2 * (a / b) + 1 = 2 * a / b := by
  have hdiv := Nat.div_add_mod a b
  have hmod := Nat.mod_lt a hb
  have hsplit : 2 * a / b = 2 * (a / b) + 2 * (a % b) / b := by
    conv_lhs => rw [← hdiv]
    rw [show 2 * (b * (a / b) + a % b) = 2 * (a % b) + b * (2 * (a / b)) by ring, Nat.add_mul_div_left _ _ hb,
      Nat.add_comm]
  have hone : 2 * (a % b) / b < 2 := Nat.div_lt_of_lt_mul (by omega)
  generalize 2 * (a % b) / b = r at hsplit hone
  omega

/-- With a divisor of 4 or more the quotient is below 2^31. -/
theorem u15Result_lt {b7 b4 : Nat} (hb7 : b7 < 4294967296) (hb4 : 4 ≤ b4) : u15Result b7 b4 < 2147483648 := by
  have hle : b7 / b4 ≤ b7 / 4 := Nat.div_le_div_left hb4 (by omega)
  have hle2 : 2 * b7 / b4 ≤ 2 * b7 / 4 := Nat.div_le_div_left hb4 (by omega)
  unfold u15Result
  split <;> omega

/-- Settles O37, by the divisor and then by the size of the quotient. -/
theorem step15DividesOnTwoPaths : Obligations.Step15DividesOnTwoPaths := by
  intro s b7 b4 q
  have hq : q = u15Result b7 b4 := rfl
  refine ⟨fun hzero => ?divZero, fun hne hlarge => ⟨?small, ?overflows⟩, fun hne hsmall => ?completes,
    fun hhigh hb4 => ?highPath⟩
  case divZero => rw [exec_u15, u15Value_of_zero hzero, State.settle_error]
  case small =>
    by_contra hb4
    exact absurd hlarge (Nat.not_le.2 (u15Result_lt s.b7.isLt (by omega)))
  case overflows => rw [exec_u15, (u15Value_of_ne_zero hne).1 hlarge, State.settle_error]
  case completes =>
    obtain ⟨v, hok, hint⟩ := (u15Value_of_ne_zero hne).2 hsmall
    exact ⟨v, hint, by rw [exec_u15, hok, State.settle_ok]⟩
  case highPath =>
    have hlt : b7 < 4294967296 := s.b7.isLt
    have hle : b7 / b4 ≤ b7 / 2 := Nat.div_le_div_left hb4 (by omega)
    have hdouble : q = 2 * (b7 / b4) := by
      rw [hq, u15Result, if_neg (by omega)]
      exact Nat.mod_eq_of_lt (by omega)
    have hcases := two_mul_div_cases b7 b4 (by omega)
    omega

/-! ## The final correction as a function of `p` (R153) -/

/-- Settles O42: over a distance of `d` the rounded correction falls by at most `d`, because the square term does not
fall and the linear one falls by less than one eighth, rounded. -/
theorem correctedPressureIsMonotone : Obligations.CorrectedPressureIsMonotone := by
  refine ⟨by decide, by decide, fun p q hp hpq hq => ?_⟩
  have hsquare : p / 256 * (p / 256) ≤ q / 256 * (q / 256) := mul_self_le_mul_self (by omega) (by omega)
  unfold correctedPressure
  omega

/-- From an even `p` to the next one the square term of the correction does not change and the linear one does not grow. -/
theorem correctedPressure_succ_le {p : Int} (h : p % 2 = 0) : correctedPressure (p + 1) ≤ correctedPressure p + 1 := by
  have hsame : (p + 1) / 256 = p / 256 := by omega
  unfold correctedPressure
  rw [hsame]
  omega

/-- Settles O38: the two quotients differ by at most 1, and so do the corrected pressures of neighbours. -/
theorem highPathLosesAtMostOnePascal : Obligations.HighPathLosesAtMostOnePascal := by
  intro b7 b4 hlo hhi hb4 hq
  obtain heq | heq := two_mul_div_cases b7 b4 (by omega)
  · exact .inl (by rw [heq])
  · have hle := correctedPressure_succ_le (p := (2 * (b7 / b4) : Nat)) (by omega)
    have hge := correctedPressureIsMonotone.2.2 (2 * (b7 / b4) : Nat) ((2 * (b7 / b4) : Nat) + 1) (by omega) (by omega)
      (by omega)
    rw [← heq]
    push_cast at hle hge ⊢
    omega

/-! ## Step 18 (R153, R154) -/

theorem exec_u18 (s : State) :
    exec .u18 s = .next (s.settle 18#5 (u18Value s) fun c v => CE.complete { c with press := some v }) := rfl

theorem u18Value_eq (s : State) :
    u18Value s = (narrowS32 (s.x1.toInt + s.x2.toInt) >>= fun t =>
      narrowS32 (t.toInt + 3791) >>= fun t2 => narrowS32 (s.p.toInt + t2.toInt / 16)) := by
  simp only [u18Value, sadd32, asr32_toInt]
  rfl

/-- Settles O41: three sums that can fail, in order, then completion. -/
theorem step18WritesPressureAndCompletes : Obligations.Step18WritesPressureAndCompletes := by
  intro s r y fits
  have hafterR := fun hr : fits r => (u18Value_eq s).trans (narrowS32_bind_narrowS32 hr (· + 3791) _)
  have hafterT : fits r → fits (r + 3791) → u18Value s = narrowS32 y := by
    intro hr ht
    obtain ⟨t, hok, hint⟩ := (narrowS32_isExactOrOvf (r + 3791)).1 ht
    rw [hafterR hr, hok, ok_bind, hint]
  refine ⟨fun _ _ _ _ _ _ => ⟨⟨by omega, by omega⟩, ⟨by omega, by omega⟩, ⟨by omega, by omega⟩⟩,
    fun ⟨hr, ht, hy⟩ => ?completes, fun hover => ?overflows⟩
  case completes =>
    obtain ⟨v, hok, hint⟩ := (narrowS32_isExactOrOvf y).1 hy
    exact ⟨v, hint, by rw [exec_u18, hafterT hr ht, hok, State.settle_ok]; rfl⟩
  case overflows =>
    by_cases hr : fits r
    · by_cases ht : fits (r + 3791)
      · have hovf := (narrowS32_isExactOrOvf y).2 fun hy => hover ⟨hr, ht, hy⟩
        rw [exec_u18, hafterT hr ht, hovf, State.settle_error]
      · exact outcome_raises_ovf (exec_u18 s) (hafterR hr) ht
    · exact outcome_raises_ovf (exec_u18 s) (u18Value_eq s) hr

end Sys2Proof.Machine
end

section
/-! PROOFS. Operands, bytes written and read back, the load micro-step and the output triple (spec/00_scope.md R8, spec/10_state.md
R20, spec/20_memory.md R64, R65, R70, spec/40_host_access_and_commands.md R104, spec/44_altitude.md R174). -/

namespace Sys2Proof.Machine

/-! ## Operands (R8, R20, R86) -/

/-- Bytes put together most significant first (R64). -/
theorem toNat_append_byte {w : Nat} (x : BitVec w) (d : Byte) : (x ++ d).toNat = x.toNat * 256 + d.toNat := by
  rw [BitVec.toNat_append, ← Nat.shiftLeft_add_eq_or_of_lt d.isLt, Nat.shiftLeft_eq]

theorem toS32_of_large {u : W32} (h : u.toNat ≥ 2147483648) : toS32 u = .error .ovf := if_pos h

theorem toS32_of_small {u : W32} (h : u.toNat < 2147483648) : toS32 u = .ok u := if_neg (by omega)

/-- Settles O9, conjunct by conjunct. -/
theorem operandsAreAssembledAndWidened : Obligations.OperandsAreAssembledAndWidened := by
  refine ⟨fun a => ?toU32, fun u => ⟨toS32_of_large, fun h => ⟨u, toS32_of_small h, toInt_of_lt h⟩⟩,
    fun s f i hf => ⟨fun hi => ?unsigned, fun h3 h4 h5 => ?signed⟩, fun s b0 b1 b2 b3 b4 b5 hs => ?sample⟩
  case toU32 =>
    rw [toU32_eq]
    exact toNat_eq_toInt_emod a
  case unsigned =>
    rw [s.coefValue_unsigned i (by simp [coefUnsigned]; tauto), s.coefBits_of_some i hf]
  case signed =>
    rw [s.coefValue_signed i (by simp [coefUnsigned, h3, h4, h5]), s.coefBits_of_some i hf]
  case sample =>
    have hbyte : ∀ (k : Fin 6) (d : Byte), #v[some b0, some b1, some b2, some b3, some b4, some b5][k] = some d →
        s.sampleByte k = d := fun k d h => s.sampleByte_of_some k (by rw [hs]; exact h)
    rw [s.ut_toInt, State.utBits, State.up, hbyte 0 b0 rfl, hbyte 1 b1 rfl, hbyte 2 b2 rfl, hbyte 3 b3 rfl,
      hbyte 4 b4 rfl, hbyte 5 b5 rfl]
    simp only [toNat_append_byte]
    omega

/-! ## A byte read after a write (R70) -/

theorem State.sampleByte_storeSample_same (s : State) (k : Fin 6) (d : Byte) :
    (s.withCE (s.ce.storeSample k.val d)).sampleByte k = d :=
  State.sampleByte_of_some _ k (by simp)

theorem State.sampleByte_storeSample_other (s : State) {j k : Fin 6} (d : Byte) (h : j ≠ k) :
    (s.withCE (s.ce.storeSample k.val d)).sampleByte j = s.sampleByte j := by
  have hne : k.val ≠ j.val := fun he => h (Fin.ext he.symm)
  simp [State.sampleByte, hne]

/-- Settles O18: the write stores one input, and each input byte is read from where it is stored. -/
theorem readAfterAcceptedWrite : Obligations.ReadAfterAcceptedWrite := by
  intro s t a b d hfault hbusy haddr hexec
  have hacc := s.ce.accepts_iff_not_fault_not_busy.2 ⟨hfault, hbusy⟩
  cases (exec_wr a d s).symm.trans hexec
  rcases haddr with rfl | ⟨hlo, hhi⟩
  · rw [State.writeByte_ossIn d hacc]
    refine ⟨rfl, fun hne hb => absurd hb hne, fun _ k hk _ => ?_⟩
    rw [State.readByte_sample _ k hk, State.readByte_sample _ k hk]
    rfl
  · obtain ⟨k, hk⟩ : ∃ k : Fin 6, a.toNat = 0x18 + k.val := ⟨⟨a.toNat - 0x18, by omega⟩, by simp; omega⟩
    rw [State.writeByte_sample d hacc k hk]
    refine ⟨?same, ?level, fun hne j hj _ => ?other⟩
    case same => rw [State.readByte_sample _ k hk, State.sampleByte_storeSample_same]
    case level =>
      rintro - rfl
      rfl
    case other =>
      have hjk : j ≠ k := by
        rintro rfl
        exact hne (BitVec.eq_of_toNat_eq (hj.trans hk.symm))
      rw [State.readByte_sample _ j hj, State.readByte_sample _ j hj, State.sampleByte_storeSample_other s d hjk]

/-! ## The load micro-step (R104) -/

theorem exec_ldstep (k : BitVec 5) (s : State) : exec (.ldstep k) s = .next (s.loadStep k) := rfl

/-- Read `k` presents the address of byte `k mod 2` of coefficient `k div 2`. -/
theorem srcAddr_eq (k : BitVec 5) (i : Fin 11) :
    (k.toNat = 2 * i.val → srcAddr k = Config.srcAddrHi i) ∧ (k.toNat = 2 * i.val + 1 → srcAddr k = Config.srcAddrLo i) := by
  have hi : k.toNat / 2 = i.val → Fin.ofNat 11 (k.toNat / 2) = i := fun h => Fin.ext (by rw [Fin.val_ofNat]; omega)
  constructor
  · intro h
    rw [srcAddr, if_pos (by omega), hi (by omega)]
  · intro h
    rw [srcAddr, if_neg (by omega), hi (by omega)]

theorem State.loadStep_of_fail {s : State} {k : BitVec 5} (h : (s.srcAnswer (srcAddr k)).getLsbD 8 = true) :
    s.loadStep k = raiseFault .transport k (s.afterRequest (srcAddr k)) := by
  rw [State.loadStep, responseByte, if_pos h]

theorem State.loadStep_of_byte {s : State} {k : BitVec 5} (h : (s.srcAnswer (srcAddr k)).getLsbD 8 = false) :
    s.loadStep k = (s.afterRequest (srcAddr k)).withCE
      (s.ce.takeLoadByte s.env.draws k ((s.srcAnswer (srcAddr k)).extractLsb' 0 8)) := by
  rw [State.loadStep, responseByte, if_neg (Bool.eq_false_iff.1 h)]

theorem CE.takeLoadByte_of_lt (c : CE) (draws : Nat) {k : BitVec 5} (d : Byte) (h : k.toNat < 21) :
    c.takeLoadByte draws k d = { c with ldbuf := c.ldbuf.setIfInBounds k.toNat (some d), ldcnt := k + 1#5 } := if_pos h

/-- The 22nd byte commits the file. -/
theorem CE.takeLoadByte_of_last (c : CE) (draws : Nat) {k : BitVec 5} (d : Byte) (h : k.toNat = 21) :
    c.takeLoadByte draws k d =
      { c with
        ldbuf := c.ldbuf.setIfInBounds 21 (some d)
        coef := some (loadFile draws (c.ldbuf.setIfInBounds 21 (some d)))
        cvalid := true, mode := .idle, ldcnt := 0#5 } := by
  rw [← h]
  exact if_neg (by omega)

theorem loadByte_of_some (draws : Nat) {buf : Vector (Option Byte) 22} {j : Fin 22} {d : Byte} (h : buf[j] = some d) :
    loadByte draws buf j = d := by
  unfold loadByte
  rw [h]

theorem loadFile_getElem (draws : Nat) (buf : Vector (Option Byte) 22) (i : Fin 11) :
    (loadFile draws buf)[i] = loadWord draws buf i := by
  fin_cases i <;> rfl

/-- A committed coefficient is its two bytes, the first most significant (R65). -/
theorem loadFile_toNat (draws : Nat) {buf : Vector (Option Byte) 22} (i : Fin 11) {hi lo : Byte}
    (hhi : buf[2 * i.val] = some hi) (hlo : buf[2 * i.val + 1] = some lo) :
    (loadFile draws buf)[i].toNat = hi.toNat * 256 + lo.toNat := by
  rw [loadFile_getElem, loadWord, loadByte_of_some draws hhi, loadByte_of_some draws hlo, toNat_append_byte]

/-- Settles O23, by what the source answers and then by the number of the read. -/
theorem loadStepCompletesForAnyAnswer : Obligations.LoadStepCompletesForAnyAnswer := by
  intro s k hk a r s1
  refine ⟨srcAddr_eq k, fun r' rs h => State.srcAnswer_some a h, fun hfail => ?fails, fun hbyte => ?keeps⟩
  case fails => rw [exec_ldstep, State.loadStep_of_fail hfail]; rfl
  case keeps =>
    refine ⟨_, (exec_ldstep k s).trans (congrArg _ (State.loadStep_of_byte hbyte)), rfl, ?buffer, fun hlt => ?next, fun hlast => ?commits⟩
    case buffer =>
      by_cases hlt : k.toNat < 21
      · rw [State.withCE_ce, CE.takeLoadByte_of_lt _ _ _ hlt]
      · rw [State.withCE_ce, CE.takeLoadByte_of_last _ _ _ (by omega), show k.toNat = 21 by omega]
    case next => rw [State.withCE_ce, CE.takeLoadByte_of_lt _ _ _ hlt]
    case commits =>
      rw [State.withCE_ce, CE.takeLoadByte_of_last _ _ _ hlast]
      exact ⟨_, rfl, fun i hi lo hhi hlo => loadFile_toNat _ i hhi hlo⟩

/-- Settles O22: the answer at hand is the one listed. -/
theorem loadStepReadsOneByte : Obligations.LoadStepReadsOneByte := by
  intro s k r rs hk hans
  have hr : s.srcAnswer (srcAddr k) = r := State.srcAnswer_some _ hans
  have hreq : s.afterRequest (srcAddr k) =
      { s with env := { s.env with srcAnswers := rs, srcRequests := srcAddr k :: s.env.srcRequests } } := by
    rw [State.afterRequest, hans]
    rfl
  refine ⟨srcAddr k, _, srcAddr_eq k, rfl, fun hfail => ?fails, fun hbyte hlt => ?keeps, fun hbyte hlast => ?commits⟩
  case fails => rw [exec_ldstep, State.loadStep_of_fail (hr.symm ▸ hfail), hreq]
  case keeps =>
    rw [exec_ldstep, State.loadStep_of_byte (hr.symm ▸ hbyte), hreq, hr, CE.takeLoadByte_of_lt _ _ _ hlt]
  case commits =>
    refine ⟨_, ?_, fun i hi lo hhi hlo => loadFile_toNat s.env.draws i hhi hlo⟩
    rw [exec_ldstep, State.loadStep_of_byte (hr.symm ▸ hbyte), hreq, hr, CE.takeLoadByte_of_last _ _ _ hlast]

/-! ## The output triple (R174) -/

/-- The four bytes of a register join to it (R64). -/
theorem joinBytes32_byteOf32 (v : W32) :
    joinBytes32 (byteOf32 v 0) (byteOf32 v 1) (byteOf32 v 2) (byteOf32 v 3) = v := by
  apply BitVec.eq_of_toNat_eq
  have hv := v.isLt
  simp only [joinBytes32, toNat_append_byte, byteOf32_toNat]
  omega

theorem State.joinBytes32_temp {s : State} {v : W32} (h : s.ce.temp = some v) :
    joinBytes32 (s.readByte 0x20#8) (s.readByte 0x21#8) (s.readByte 0x22#8) (s.readByte 0x23#8) = v := by
  rw [s.readByte_temp 0 rfl, s.readByte_temp 1 rfl, s.readByte_temp 2 rfl, s.readByte_temp 3 rfl, h]
  exact joinBytes32_byteOf32 v

theorem State.joinBytes32_press {s : State} {v : W32} (h : s.ce.press = some v) :
    joinBytes32 (s.readByte 0x24#8) (s.readByte 0x25#8) (s.readByte 0x26#8) (s.readByte 0x27#8) = v := by
  rw [s.readByte_press 0 rfl, s.readByte_press 1 rfl, s.readByte_press 2 rfl, s.readByte_press 3 rfl, h]
  exact joinBytes32_byteOf32 v

theorem CE.resultsReady_status (c : CE) : resultsReady c.status = (!c.busy && c.done) := by
  obtain ⟨-, -, h2, h3, -⟩ := statusBits false c.ldg c.ign c.fault c.done c.busy c.srdy c.cvalid
  exact congrArg₂ (fun b d => !b && d) h2 h3

@[simp] theorem inRange_some {v : W32} {lo hi : Int} : InRange (some v) lo hi ↔ lo ≤ v.toInt ∧ v.toInt ≤ hi := by
  simp [InRange]

/-- Over a pressure that is not negative the altitude is the formula's value. -/
theorem isAltitude_iff {p : Int} (hp : 0 ≤ p) (h : ℝ) :
    IsAltitude p h ↔ h = 44330 * (1 - ((p : ℝ) / 101325) ^ ((1 : ℝ) / 5.255)) :=
  ⟨fun halt => halt hp, fun heq _ => heq⟩

/-- Settles O60: a completed run holds both results, it is not busy, and its pressure is in the range of R153. -/
theorem completedRunDeliversTheOutputTriple : Obligations.CompletedRunDeliversTheOutputTriple := by
  intro s hinv hbounds hdone
  obtain ⟨htemp, hpress⟩ := hinv.result hdone
  obtain ⟨vt, hvt⟩ := Option.isSome_iff_exists.1 htemp
  obtain ⟨vp, hvp⟩ := Option.isSome_iff_exists.1 hpress
  have hrange : 236 ≤ vp.toInt ∧ vp.toInt ≤ 216065 := inRange_some.1 (hvp ▸ hbounds.2 hdone)
  have hidle : s.ce.busy = false := by
    by_contra hb
    have := hinv.done_eq_false_of_busy (s.ce.busy_iff.1 (by simpa using hb))
    rw [hdone] at this
    cases this
  have hready : resultsReady s.ce.status = true := by rw [CE.resultsReady_status, hidle, hdone]; rfl
  refine ⟨vt, vp, hvt, hvp, hrange.1, State.joinBytes32_temp hvt, State.joinBytes32_press hvp, hready, fun r => ?_,
    fun fp => ?_⟩
  · exact and_congr Iff.rfl (and_congr Iff.rfl (isAltitude_iff (by rw [pascal]; omega) _))
  · rw [State.reading, if_pos hready, State.temp, State.press, hvt, hvp]
    rfl

end Sys2Proof.Machine
end

section
/-! PROOFS. The ranges of the working registers along a run and the faults a run can take (spec/42_compensate_temperature.md R130
to R132, spec/43_compensate_pressure.md R140 to R153, R158, spec/60_exceptions.md R180, R183). -/

namespace Sys2Proof.Machine

/-! ## The bounds of a run in progress -/

/-- A register that holds a value holds the operand read from it. -/
theorem eq_some_regValue {r : Option W32} (h : r.isSome = true) (draws : Nat) (a : Byte) :
    r = some (regValue draws a r) := by
  obtain ⟨v, rfl⟩ := Option.isSome_iff_exists.1 h
  rfl

theorem inRange_iff_regValue {r : Option W32} (h : r.isSome = true) (draws : Nat) (a : Byte) {lo hi : Int} :
    InRange r lo hi ↔ lo ≤ (regValue draws a r).toInt ∧ (regValue draws a r).toInt ≤ hi := by
  rw [← inRange_some, ← eq_some_regValue h]

@[simp] theorem atMost_some {v : W32} {hi : Nat} : AtMost (some v) hi ↔ v.toNat ≤ hi := by simp [AtMost]

/-- The bounds that `CE.Bounds` gives while computing. -/
@[simp] def CE.RunBounds (c : CE) : Prop := c.TemperatureBounds ∧ c.MiddleBounds ∧ c.PressureBounds

/-- A legal computing block within the bounds, with step `n` next. -/
structure CE.RunsAt (c : CE) (n : BitVec 5) : Prop where
  inv : c.Inv
  bounds : c.RunBounds
  mode : c.mode = .computing
  step : c.step = n

theorem CE.RunsAt.not_idle {c : CE} {n : BitVec 5} (h : c.RunsAt n) : c.mode ≠ .idle := by
  rw [h.mode]
  decide

/-- The ranges of the operands of step `n`, each by the step that leaves it (R130 to R152). -/
structure State.OperandBounds (s : State) (n : Nat) : Prop where
  x1OfStep1 : 2 ≤ n ∧ n ≤ 6 → -65536 ≤ s.x1.toInt ∧ s.x1.toInt ≤ 65535
  x2OfStep2 : 3 ≤ n ∧ n ≤ 7 → -67108864 ≤ s.x2.toInt ∧ s.x2.toInt ≤ 67108864
  b5 : 4 ≤ n → -67174400 ≤ s.b5.toInt ∧ s.b5.toInt ≤ 67174399
  b6OfStep5 : 6 ≤ n → -67178400 ≤ s.b6.toInt ∧ s.b6.toInt ≤ 67170399
  b6AfterStep6 : 7 ≤ n → -46340 ≤ s.b6.toInt ∧ s.b6.toInt ≤ 46340
  x1OfStep6 : 7 ≤ n ∧ n ≤ 10 → -1048576 ≤ s.x1.toInt ∧ s.x1.toInt ≤ 1048575
  x2OfStep7 : 8 ≤ n ∧ n ≤ 11 → -741440 ≤ s.x2.toInt ∧ s.x2.toInt ≤ 741440
  x3OfStep8 : 9 ≤ n ∧ n ≤ 12 → -1790016 ≤ s.x3.toInt ∧ s.x3.toInt ≤ 1790015
  b3 : 10 ≤ n → -3850000 ≤ s.b3.toInt ∧ s.b3.toInt ≤ 3850000
  x1OfStep10 : 11 ≤ n ∧ n ≤ 16 → -185360 ≤ s.x1.toInt ∧ s.x1.toInt ≤ 185360
  x2OfStep11 : 12 ≤ n ∧ n ≤ 17 → -32768 ≤ s.x2.toInt ∧ s.x2.toInt ≤ 32767
  x3OfStep12 : 13 ≤ n → -54532 ≤ s.x3.toInt ∧ s.x3.toInt ≤ 54532
  pOfStep15 : 16 ≤ n → 0 ≤ s.p.toInt ∧ s.p.toInt ≤ 2147483647
  pAfterStep16 : 17 ≤ n → 0 ≤ s.p.toInt ∧ s.p.toInt ≤ 215295
  x1OfStep16 : 17 ≤ n → (0 ≤ s.x1.toInt ∧ s.x1.toInt ≤ 32708) ∧
    s.x1.toInt = (s.p.toInt / 256) * (s.p.toInt / 256) * 3038 / 65536
  x2OfStep17 : 18 ≤ n → (-24169 ≤ s.x2.toInt ∧ s.x2.toInt ≤ 0) ∧ s.x2.toInt = (-7357 * s.p.toInt) / 65536

/-- Two registers that hold values: a relation between them is one between the operands. -/
theorem regValue_eq_of_map_eq {r q : Option W32} (hr : r.isSome = true) (hq : q.isSome = true) {f : Int → Int}
    (h : r.map (·.toInt) = q.map fun v => f v.toInt) (draws : Nat) (a b : Byte) :
    (regValue draws a r).toInt = f (regValue draws b q).toInt := by
  obtain ⟨v, rfl⟩ := Option.isSome_iff_exists.1 hr
  obtain ⟨w, rfl⟩ := Option.isSome_iff_exists.1 hq
  exact Option.some.inj h

theorem CE.RunsAt.operandBounds {s : State} {n : BitVec 5} (h : s.ce.RunsAt n) : s.OperandBounds n.toNat := by
  obtain ⟨hinv, ⟨hT, hM, hP⟩, hmode, rfl⟩ := h
  obtain ⟨hx1, hx2, hb5, -, hb6, hx3, hb3, -, -, hp⟩ := hinv.work hmode
  obtain ⟨hT1, hT2, hT3⟩ := hT
  obtain ⟨hM1, hM2, hM3, hM4, hM5, hM6, hM7, hM8, hM9⟩ := hM
  obtain ⟨-, hP1, hP2, hP3, hP4⟩ := hP
  exact {
    x1OfStep1 := fun hn => (inRange_iff_regValue (hx1 (by omega)) _ _).1 (hT1 hn)
    x2OfStep2 := fun hn => (inRange_iff_regValue (hx2 (by omega)) _ _).1 (hT2 hn)
    b5 := fun hn => (inRange_iff_regValue (hb5 hn) _ _).1 (hT3 hn)
    b6OfStep5 := fun hn => (inRange_iff_regValue (hb6 hn) _ _).1 (hM1 hn)
    b6AfterStep6 := fun hn => (inRange_iff_regValue (hb6 (by omega)) _ _).1 (hM2 hn)
    x1OfStep6 := fun hn => (inRange_iff_regValue (hx1 (by omega)) _ _).1 (hM3 hn)
    x2OfStep7 := fun hn => (inRange_iff_regValue (hx2 (by omega)) _ _).1 (hM4 hn)
    x3OfStep8 := fun hn => (inRange_iff_regValue (hx3 (by omega)) _ _).1 (hM5 hn)
    b3 := fun hn => (inRange_iff_regValue (hb3 hn) _ _).1 (hM6 hn)
    x1OfStep10 := fun hn => (inRange_iff_regValue (hx1 (by omega)) _ _).1 (hM7 hn)
    x2OfStep11 := fun hn => (inRange_iff_regValue (hx2 (by omega)) _ _).1 (hM8 hn)
    x3OfStep12 := fun hn => (inRange_iff_regValue (hx3 (by omega)) _ _).1 (hM9 hn)
    pOfStep15 := fun hn => (inRange_iff_regValue (hp hn) _ _).1 (hP1 hn)
    pAfterStep16 := fun hn => (inRange_iff_regValue (hp (by omega)) _ _).1 (hP2 hn)
    x1OfStep16 := fun hn => ⟨(inRange_iff_regValue (hx1 (by omega)) _ _).1 (hP3 hn).1,
      regValue_eq_of_map_eq (f := fun z => z / 256 * (z / 256) * 3038 / 65536) (hx1 (by omega)) (hp (by omega))
        (hP3 hn).2 _ _ _⟩
    x2OfStep17 := fun hn => ⟨(inRange_iff_regValue (hx2 (by omega)) _ _).1 (hP4 hn).1,
      regValue_eq_of_map_eq (f := fun z => -7357 * z / 65536) (hx2 (by omega)) (hp (by omega)) (hP4 hn).2 _ _ _⟩ }

theorem CE.RunsAt.b6_eq_some {s : State} {n : BitVec 5} (h : s.ce.RunsAt n) (hn : 6 ≤ n.toNat) :
    s.ce.b6 = some s.b6 := by
  obtain ⟨-, -, -, -, hb6, -⟩ := h.inv.work h.mode
  exact eq_some_regValue (hb6 (by rwa [h.step])) _ _

theorem CE.RunsAt.p_eq_some {s : State} {n : BitVec 5} (h : s.ce.RunsAt n) (hn : 16 ≤ n.toNat) : s.ce.p = some s.p := by
  obtain ⟨-, -, -, -, -, -, -, -, -, hp⟩ := h.inv.work h.mode
  exact eq_some_regValue (hp (by rwa [h.step])) _ _

/-! ## What every step keeps beside legality -/

/-- The bounds of the registers hold, and `FINFO` is one of the listed values. -/
def CE.Sound (c : CE) : Prop := c.Bounds ∧ finfoProduced c.finfo = true

theorem CE.bounds_of_idle {c : CE} (hm : c.mode = .idle) (hd : c.done = true → InRange c.press 236 216065) : c.Bounds :=
  ⟨fun hc => (by cases hm.symm.trans hc), hd⟩

section RunsAt
variable {s : State} {n : BitVec 5}

/-- A fault whose byte is listed keeps soundness, whatever `X1` it leaves. -/
theorem CE.RunsAt.sound_raiseFault (h : s.ce.RunsAt n) {t : State} {k : Cause} {x : Option W32}
    (ht : t.ce = { s.ce with x1 := x }) (hk : finfoProduced (k.code ++ n) = true) : (raiseFault k n t).ce.Sound := by
  have hdone : s.ce.done = false := h.inv.done_eq_false_of_busy h.not_idle
  refine ⟨CE.bounds_of_idle rfl fun hd => ?_, hk⟩
  rw [raiseFault_ce, ht, CE.faultEntry_done, hdone] at hd
  cases hd

/-- A step that writes its register and moves on keeps soundness if the run's bounds hold after it. -/
theorem CE.RunsAt.sound_advance (h : s.ce.RunsAt n) {c : CE} (hframe : s.ce.SameButForRun c)
    (hb : s.ce.RunBounds → c.RunBounds) : (s.withCE c).ce.Sound := by
  have hdone : c.done = false := by rw [hframe]; exact h.inv.done_eq_false_of_busy h.not_idle
  have hfault : c.finfo = 0x00#8 := by
    rw [hframe]
    exact h.inv.finfo_of_not_fault (h.inv.fault_eq_false_of_busy h.not_idle)
  refine ⟨⟨fun _ => hb h.bounds, fun hd => ?_⟩, ?_⟩
  · rw [State.withCE_ce, hdone] at hd
    cases hd
  · rw [State.withCE_ce, hfault]
    rfl

end RunsAt

/-! ## Every pipeline step, from the statement of the step and the ranges of its operands -/

section PipelineSteps
variable {s : State}

theorem u1_sound (h : s.ce.RunsAt 1#5) : ∃ t, exec .u1 s = .next t ∧ t.ce.Sound := by
  obtain ⟨-, -, hdone, hover⟩ := step1WritesX1OrOverflows s
  by_cases hfits : -2147483648 ≤ (s.ut.toInt - s.a6.toInt) * s.a5.toInt ∧
      (s.ut.toInt - s.a6.toInt) * s.a5.toInt ≤ 2147483647
  · obtain ⟨v, -, hlo, hhi, hexec⟩ := hdone hfits
    refine ⟨_, hexec, h.sound_advance rfl fun hb => ?_⟩
    simp [CE.TemperatureBounds, CE.MiddleBounds, CE.PressureBounds, InRange, AtMost, hlo, hhi]
  · exact ⟨_, hover hfits, h.sound_raiseFault rfl (by decide)⟩

theorem u2_sound (h : s.ce.RunsAt 2#5) : ∃ t, exec .u2 s = .next t ∧ t.ce.Sound := by
  obtain ⟨-, hden, hzero, hdone, -⟩ := step2DividesOrFaults s
  have hx1 := h.operandBounds.x1OfStep1 (by decide)
  by_cases hz : s.x1.toInt + s.md.toInt = 0
  · exact ⟨_, hzero hz, h.sound_raiseFault rfl (by decide)⟩
  · have hrange := hden hx1
    obtain ⟨v, -, hlo, hhi, hexec⟩ := hdone hz ⟨by omega, by omega⟩
    refine ⟨_, hexec, h.sound_advance rfl fun hb => ?_⟩
    simp [CE.TemperatureBounds, CE.MiddleBounds, CE.PressureBounds, InRange, AtMost, h.step] at hb
    simp [CE.TemperatureBounds, CE.MiddleBounds, CE.PressureBounds, InRange, AtMost, hb, hlo, hhi]

theorem u3_sound (h : s.ce.RunsAt 3#5) : ∃ t, exec .u3 s = .next t ∧ t.ce.Sound := by
  obtain ⟨hrange, -, hdone, -⟩ := steps3And8AddX1AndX2 s
  have hsum := hrange (h.operandBounds.x1OfStep1 (by decide)) (h.operandBounds.x2OfStep2 (by decide))
  obtain ⟨v, hint, hexec, -⟩ := hdone (by omega)
  rw [← hint] at hsum
  refine ⟨_, hexec, h.sound_advance rfl fun hb => ?_⟩
  simp [CE.TemperatureBounds, CE.MiddleBounds, CE.PressureBounds, InRange, AtMost, h.step] at hb
  simp [CE.TemperatureBounds, CE.MiddleBounds, CE.PressureBounds, InRange, AtMost, hb, hsum]

theorem u4_sound (h : s.ce.RunsAt 4#5) : ∃ t, exec .u4 s = .next t ∧ t.ce.Sound := by
  obtain ⟨hdone, -⟩ := step4WritesTemperature s
  have hb5 := h.operandBounds.b5 (by decide)
  obtain ⟨v, -, hexec⟩ := hdone (by omega)
  refine ⟨_, hexec, h.sound_advance rfl fun hb => ?_⟩
  simp [CE.TemperatureBounds, CE.MiddleBounds, CE.PressureBounds, InRange, AtMost, h.step] at hb
  simp [CE.TemperatureBounds, CE.MiddleBounds, CE.PressureBounds, InRange, AtMost, hb]

theorem u5_sound (h : s.ce.RunsAt 5#5) : ∃ t, exec .u5 s = .next t ∧ t.ce.Sound := by
  obtain ⟨hdone, -⟩ := step5SubtractsIntoB6 s
  have hb5 := h.operandBounds.b5 (by decide)
  obtain ⟨v, hint, hexec⟩ := hdone (by omega)
  have hv : -67178400 ≤ v.toInt ∧ v.toInt ≤ 67170399 := by omega
  refine ⟨_, hexec, h.sound_advance rfl fun hb => ?_⟩
  simp [CE.TemperatureBounds, CE.MiddleBounds, CE.PressureBounds, InRange, AtMost, h.step] at hb
  simp [CE.TemperatureBounds, CE.MiddleBounds, CE.PressureBounds, InRange, AtMost, hb, hv]

theorem u6_sound (h : s.ce.RunsAt 6#5) : ∃ t, exec .u6 s = .next t ∧ t.ce.Sound := by
  by_cases hb6 : s.b6.toInt.natAbs ≤ 46340
  case neg => exact ⟨_, (step6WritesX1OrOverflows s).1 (by omega), h.sound_raiseFault rfl (by decide)⟩
  have hsome := h.b6_eq_some (by decide)
  have hrange : -46340 ≤ s.b6.toInt ∧ s.b6.toInt ≤ 46340 := by omega
  obtain ⟨-, hsmall⟩ := step6WritesX1OrOverflows s
  obtain ⟨-, -, -, hdone, hover⟩ := hsmall hb6
  by_cases hfits : -2147483648 ≤ s.cb2.toInt * (s.b6.toInt * s.b6.toInt / 4096) ∧
      s.cb2.toInt * (s.b6.toInt * s.b6.toInt / 4096) ≤ 2147483647
  case neg => exact ⟨_, hover hfits, h.sound_raiseFault rfl (by decide)⟩
  obtain ⟨v, -, hlo, hhi, hexec⟩ := hdone hfits
  refine ⟨_, hexec, h.sound_advance rfl fun hb => ?_⟩
  simp [CE.TemperatureBounds, CE.MiddleBounds, CE.PressureBounds, InRange, AtMost, h.step, hsome] at hb
  simp [CE.TemperatureBounds, CE.MiddleBounds, CE.PressureBounds, InRange, AtMost, hb, hlo, hhi, hsome, hrange]

theorem u7_sound (h : s.ce.RunsAt 7#5) : ∃ t, exec .u7 s = .next t ∧ t.ce.Sound := by
  obtain ⟨hrange, hdone, -⟩ := steps7And10ScaleB6 s
  have hb6 := h.operandBounds.b6AfterStep6 (by decide)
  obtain ⟨hlo, hhi, hvlo, hvhi, -⟩ := hrange (by omega)
  obtain ⟨v, hint, hexec⟩ := hdone ⟨hlo, hhi⟩
  rw [← hint] at hvlo hvhi
  refine ⟨_, hexec, h.sound_advance rfl fun hb => ?_⟩
  simp [CE.TemperatureBounds, CE.MiddleBounds, CE.PressureBounds, InRange, AtMost, h.step] at hb
  simp [CE.TemperatureBounds, CE.MiddleBounds, CE.PressureBounds, InRange, AtMost, hb, hvlo, hvhi]

theorem u8_sound (h : s.ce.RunsAt 8#5) : ∃ t, exec .u8 s = .next t ∧ t.ce.Sound := by
  obtain ⟨-, -, hdone, -⟩ := steps3And8AddX1AndX2 s
  have hx1 := h.operandBounds.x1OfStep6 (by decide)
  have hx2 := h.operandBounds.x2OfStep7 (by decide)
  obtain ⟨v, hint, -, hexec⟩ := hdone (by omega)
  have hv : -1790016 ≤ v.toInt ∧ v.toInt ≤ 1790015 := by omega
  refine ⟨_, hexec, h.sound_advance rfl fun hb => ?_⟩
  simp [CE.TemperatureBounds, CE.MiddleBounds, CE.PressureBounds, InRange, AtMost, h.step] at hb
  simp [CE.TemperatureBounds, CE.MiddleBounds, CE.PressureBounds, InRange, AtMost, hb, hv]

theorem u9_sound (h : s.ce.RunsAt 9#5) : ∃ t, exec .u9 s = .next t ∧ t.ce.Sound := by
  obtain ⟨hrange, hdone, -⟩ := step9WritesB3 s
  have hx3 := h.operandBounds.x3OfStep8 (by decide)
  obtain ⟨-, hb, hc, hsum, hlo, hhi⟩ := hrange (by omega)
  obtain ⟨v, hint, hexec⟩ := hdone ⟨hb, hc, hsum⟩
  rw [← hint] at hlo hhi
  refine ⟨_, hexec, h.sound_advance rfl fun hb => ?_⟩
  simp [CE.TemperatureBounds, CE.MiddleBounds, CE.PressureBounds, InRange, AtMost, h.step] at hb
  simp [CE.TemperatureBounds, CE.MiddleBounds, CE.PressureBounds, InRange, AtMost, hb, hlo.le, hhi.le]

theorem u10_sound (h : s.ce.RunsAt 10#5) : ∃ t, exec .u10 s = .next t ∧ t.ce.Sound := by
  obtain ⟨hrange, -, -, hdone, -⟩ := steps7And10ScaleB6 s
  have hb6 := h.operandBounds.b6AfterStep6 (by decide)
  obtain ⟨-, -, -, -, hlo, hhi, hvlo, hvhi⟩ := hrange (by omega)
  obtain ⟨v, hint, hexec⟩ := hdone ⟨hlo, hhi⟩
  rw [← hint] at hvlo hvhi
  refine ⟨_, hexec, h.sound_advance rfl fun hb => ?_⟩
  simp [CE.TemperatureBounds, CE.MiddleBounds, CE.PressureBounds, InRange, AtMost, h.step] at hb
  simp [CE.TemperatureBounds, CE.MiddleBounds, CE.PressureBounds, InRange, AtMost, hb, hvlo, hvhi]

theorem u11_sound (h : s.ce.RunsAt 11#5) : ∃ t, exec .u11 s = .next t ∧ t.ce.Sound := by
  obtain ⟨-, hsmall⟩ := step11WritesX2OrOverflows s
  have hb6 := h.operandBounds.b6AfterStep6 (by decide)
  obtain ⟨-, hdone, hover⟩ := hsmall (by omega)
  by_cases hfits : -2147483648 ≤ s.cb1.toInt * (s.b6.toInt * s.b6.toInt / 4096) ∧
      s.cb1.toInt * (s.b6.toInt * s.b6.toInt / 4096) ≤ 2147483647
  case neg => exact ⟨_, hover hfits, h.sound_raiseFault rfl (by decide)⟩
  obtain ⟨v, -, hlo, hhi, hexec⟩ := hdone hfits
  refine ⟨_, hexec, h.sound_advance rfl fun hb => ?_⟩
  simp [CE.TemperatureBounds, CE.MiddleBounds, CE.PressureBounds, InRange, AtMost, h.step] at hb
  simp [CE.TemperatureBounds, CE.MiddleBounds, CE.PressureBounds, InRange, AtMost, hb, hlo, hhi]

theorem u12_sound (h : s.ce.RunsAt 12#5) : ∃ t, exec .u12 s = .next t ∧ t.ce.Sound := by
  obtain ⟨hrange, hdone, -⟩ := step12WritesX3 s
  have hx1 := h.operandBounds.x1OfStep10 (by decide)
  have hx2 := h.operandBounds.x2OfStep11 (by decide)
  obtain ⟨hr, hsum, hlo, hhi⟩ := hrange (by omega) hx2.1 hx2.2
  obtain ⟨v, hint, hexec⟩ := hdone ⟨hr, hsum⟩
  rw [← hint] at hlo hhi
  refine ⟨_, hexec, h.sound_advance rfl fun hb => ?_⟩
  simp [CE.TemperatureBounds, CE.MiddleBounds, CE.PressureBounds, InRange, AtMost, h.step] at hb
  simp [CE.TemperatureBounds, CE.MiddleBounds, CE.PressureBounds, InRange, AtMost, hb, hlo, hhi]

theorem u13_sound (h : s.ce.RunsAt 13#5) : ∃ t, exec .u13 s = .next t ∧ t.ce.Sound := by
  obtain ⟨-, -, hdone, -⟩ := step13WritesB4Unsigned s
  have hx3 := h.operandBounds.x3OfStep12 (by decide)
  obtain ⟨v, -, hle, hexec⟩ := hdone (by omega)
  refine ⟨_, hexec, h.sound_advance rfl fun hb => ?_⟩
  simp [CE.TemperatureBounds, CE.MiddleBounds, CE.PressureBounds, InRange, AtMost, h.step] at hb
  simp [CE.TemperatureBounds, CE.MiddleBounds, CE.PressureBounds, InRange, AtMost, hb, hle]

theorem u14_sound (h : s.ce.RunsAt 14#5) : ∃ t, exec .u14 s = .next t ∧ t.ce.Sound := by
  obtain ⟨v, -, hexec, -⟩ := step14WritesB7Unsigned s
  refine ⟨_, hexec, h.sound_advance rfl fun hb => ?_⟩
  simp [CE.TemperatureBounds, CE.MiddleBounds, CE.PressureBounds, InRange, AtMost, h.step] at hb
  simp [CE.TemperatureBounds, CE.MiddleBounds, CE.PressureBounds, InRange, AtMost, hb]

theorem u15_sound (h : s.ce.RunsAt 15#5) : ∃ t, exec .u15 s = .next t ∧ t.ce.Sound := by
  obtain ⟨hzero, hover, hdone, -⟩ := step15DividesOnTwoPaths s
  by_cases hb4 : s.b4.toNat = 0
  case pos => exact ⟨_, hzero hb4, h.sound_raiseFault rfl (by decide)⟩
  by_cases hq : 2147483648 ≤ u15Result s.b7.toNat s.b4.toNat
  case pos => exact ⟨_, (hover hb4 hq).2, h.sound_raiseFault rfl (by decide)⟩
  obtain ⟨v, (hint : v.toInt = u15Result s.b7.toNat s.b4.toNat), hexec⟩ := hdone hb4 (Nat.not_le.1 hq)
  have hv : 0 ≤ v.toInt ∧ v.toInt ≤ 2147483647 := by omega
  refine ⟨_, hexec, h.sound_advance rfl fun hb => ?_⟩
  simp [CE.TemperatureBounds, CE.MiddleBounds, CE.PressureBounds, InRange, AtMost, h.step] at hb
  simp [CE.TemperatureBounds, CE.MiddleBounds, CE.PressureBounds, InRange, AtMost, hb, hv]

theorem u16_sound (h : s.ce.RunsAt 16#5) : ∃ t, exec .u16 s = .next t ∧ t.ce.Sound := by
  obtain ⟨hnonneg, -⟩ := step16AssignsX1Twice s
  have hp := h.operandBounds.pOfStep15 (by decide)
  obtain ⟨-, hlarge, hsmall⟩ := hnonneg hp.1
  by_cases ha : s.p.toInt / 256 ≤ 46340
  case neg => exact ⟨_, hlarge (by omega), h.sound_raiseFault rfl (by decide)⟩
  obtain ⟨v, hv, hover, hdone⟩ := hsmall ha
  by_cases hle : s.p.toInt ≤ 215295
  case neg => exact ⟨_, (hover (by omega)).2, h.sound_raiseFault rfl (by decide)⟩
  obtain ⟨w, hw, hlo, hhi, hexec⟩ := hdone hle
  have hsome := h.p_eq_some (by decide)
  rw [hv] at hw
  rw [hw] at hlo hhi
  refine ⟨_, hexec, h.sound_advance rfl fun hb => ?_⟩
  simp [CE.TemperatureBounds, CE.MiddleBounds, CE.PressureBounds, InRange, AtMost, h.step, hsome] at hb
  simp [CE.TemperatureBounds, CE.MiddleBounds, CE.PressureBounds, InRange, AtMost, hb, hlo, hhi, hsome, hle, hw]

theorem u17_sound (h : s.ce.RunsAt 17#5) : ∃ t, exec .u17 s = .next t ∧ t.ce.Sound := by
  obtain ⟨hrange, hdone, -⟩ := step17WritesX2 s
  have hp := h.operandBounds.pAfterStep16 (by decide)
  obtain ⟨hlo, hhi, hvlo, hvhi⟩ := hrange hp.1 hp.2
  obtain ⟨v, hv, hexec⟩ := hdone ⟨hlo, hhi⟩
  have hsome := h.p_eq_some (by decide)
  refine ⟨_, hexec, h.sound_advance rfl fun hb => ?_⟩
  simp [CE.TemperatureBounds, CE.MiddleBounds, CE.PressureBounds, InRange, AtMost, h.step, hsome] at hb
  simp [CE.TemperatureBounds, CE.MiddleBounds, CE.PressureBounds, InRange, AtMost, hb, hsome, hv]
  omega

/-- The last step writes the corrected pressure of `p`, which is monotone in `p` (R153). -/
theorem u18_sound (h : s.ce.RunsAt 18#5) : ∃ t, exec .u18 s = .next t ∧ t.ce.Sound := by
  obtain ⟨hrange, hdone, -⟩ := step18WritesPressureAndCompletes s
  obtain ⟨hp0, hp⟩ := h.operandBounds.pAfterStep16 (by decide)
  obtain ⟨⟨hx1lo, hx1hi⟩, hx1⟩ := h.operandBounds.x1OfStep16 (by decide)
  obtain ⟨⟨hx2lo, hx2hi⟩, hx2⟩ := h.operandBounds.x2OfStep17 (by decide)
  obtain ⟨v, hv, hexec⟩ := hdone (hrange hp0 hp hx1lo hx1hi hx2lo hx2hi)
  have hcorrected : v.toInt = correctedPressure s.p.toInt := by rw [hv, hx1, hx2]; rfl
  obtain ⟨hfirst, hlast, hmono⟩ := correctedPressureIsMonotone
  have hlo := hmono 0 s.p.toInt le_rfl hp0 hp
  have hhi := hmono s.p.toInt 215295 hp0 hp le_rfl
  refine ⟨_, hexec, CE.bounds_of_idle rfl fun _ => inRange_some.2 ⟨by omega, by omega⟩, ?_⟩
  have hfinfo := h.inv.finfo_of_not_fault (h.inv.fault_eq_false_of_busy h.not_idle)
  rw [State.withCE_ce, hfinfo]
  rfl

end PipelineSteps

theorem CE.RunsAt.sound_exec {s t : State} {n : BitVec 5} {i : Instr} (h : s.ce.RunsAt n) (henc : encode i = .pipe n)
    (hexec : exec i s = .next t) : t.ce.Sound := by
  have of_exists : (∃ u, exec i s = .next u ∧ u.ce.Sound) → t.ce.Sound := by
    rintro ⟨u, hu, hsound⟩
    cases hu.symm.trans hexec
    exact hsound
  cases i <;> cases henc
  case u1 => exact of_exists (u1_sound h)
  case u2 => exact of_exists (u2_sound h)
  case u3 => exact of_exists (u3_sound h)
  case u4 => exact of_exists (u4_sound h)
  case u5 => exact of_exists (u5_sound h)
  case u6 => exact of_exists (u6_sound h)
  case u7 => exact of_exists (u7_sound h)
  case u8 => exact of_exists (u8_sound h)
  case u9 => exact of_exists (u9_sound h)
  case u10 => exact of_exists (u10_sound h)
  case u11 => exact of_exists (u11_sound h)
  case u12 => exact of_exists (u12_sound h)
  case u13 => exact of_exists (u13_sound h)
  case u14 => exact of_exists (u14_sound h)
  case u15 => exact of_exists (u15_sound h)
  case u16 => exact of_exists (u16_sound h)
  case u17 => exact of_exists (u17_sound h)
  case u18 => exact of_exists (u18_sound h)

/-! ## Every other transition -/

theorem HostEffect.bounds {c c' : CE} {w : BitVec 17} (he : HostEffect c w c') (h : c.Bounds) : c'.Bounds := by
  cases he with
  | unchanged | ignored | level => exact h
  | sample k d hacc => exact h
  | load hw hacc => exact ⟨nofun, h.2⟩
  | compensate hw hacc =>
    refine ⟨fun _ => ?_, nofun⟩
    simp [CE.TemperatureBounds, CE.MiddleBounds, CE.PressureBounds]

theorem HostEffect.keeps_finfo {c c' : CE} {w : BitVec 17} (he : HostEffect c w c') : c'.finfo = c.finfo := by
  cases he <;> rfl

/-- The transport faults are 0x20 to 0x35. -/
theorem finfoProduced_transport : ∀ k : BitVec 5, k.toNat ≤ 21 → finfoProduced (Cause.transport.code ++ k) = true := by
  decide

theorem LoadEffect.bounds {c c' : CE} (he : LoadEffect c c') (h : c.Bounds) : c'.Bounds := by
  cases he with
  | fails | commits => exact CE.bounds_of_idle rfl h.2
  | keeps => exact h

theorem LoadEffect.finfoProduced {c c' : CE} (he : LoadEffect c c') (hk : c.ldcnt.toNat ≤ 21)
    (h : finfoProduced c.finfo = true) : finfoProduced c'.finfo = true := by
  cases he with
  | fails => exact finfoProduced_transport _ hk
  | keeps | commits => exact h

/-! ## Every step -/

theorem step_bounds_and_finfo {s t : State} (hinv : s.ce.Inv) (hb : s.ce.Bounds) (hstep : step s = .next t) :
    t.ce.Bounds ∧ (finfoProduced s.ce.finfo = true → finfoProduced t.ce.finfo = true) := by
  cases step_kind hstep with
  | reset => exact ⟨resetStateIsLegal.2, fun _ => rfl⟩
  | host w _ hexec =>
    have heffect := hostEffect_of_exec (s := s.tick) hexec
    exact ⟨heffect.bounds hb, fun h => heffect.keeps_finfo ▸ h⟩
  | waits => exact ⟨hb, id⟩
  | load _ _ _ hk =>
    have heffect := loadEffect_of_loadStep s.tick hk
    exact ⟨heffect.bounds hb, heffect.finfoProduced hk⟩
  | pipe i _ hmode henc hexec =>
    have hruns : s.tick.ce.RunsAt s.ce.step := ⟨hinv, hb.1 hmode, hmode, rfl⟩
    obtain ⟨hbounds, hfinfo⟩ := hruns.sound_exec henc hexec
    exact ⟨hbounds, fun _ => hfinfo⟩

/-- Settles O46, by the kinds of transition; the pipeline steps are those of the section above. -/
theorem everyStepKeepsRegisterBounds : Obligations.EveryStepKeepsRegisterBounds :=
  fun _ _ hinv hb hstep => (step_bounds_and_finfo hinv hb hstep).1

/-- Settles O47: within the bounds a fault byte that a step writes is listed. -/
theorem onlyListedFaultsOccur : Obligations.OnlyListedFaultsOccur :=
  fun _ _ hinv hb hfinfo hstep => (step_bounds_and_finfo hinv hb hstep).2 hfinfo

end Sys2Proof.Machine
end

section
/-! PROOFS. Runs left to the sequencer: how a step continues a run, the end of a compensation and of a load, and what a load of
listed answers leaves (spec/70_reset_and_hazards.md R211, spec/40_host_access_and_commands.md R104, spec/20_memory.md R65, R75). -/

namespace Sys2Proof.Machine

/-! ## Runs -/

theorem run_succ {s t : State} (h : step s = .next t) (n : Nat) :
    Host.Core.run Sys2Proof.core (n + 1) s = Host.Core.run Sys2Proof.core n t := by
  have hcore : Sys2Proof.core.step s = .next t := h
  simp only [Host.Core.run, hcore]

theorem run_one {s t : State} (h : step s = .next t) : Host.Core.run Sys2Proof.core 1 s = .next t := run_succ h 0

/-- A run that has come to `t` goes on from `t`. -/
theorem run_add {m : Nat} {s t : State} (h : Host.Core.run Sys2Proof.core m s = .next t) (n : Nat) :
    Host.Core.run Sys2Proof.core (m + n) s = Host.Core.run Sys2Proof.core n t := by
  induction m generalizing s with
  | zero =>
    cases h
    rw [Nat.zero_add]
  | succ m ih =>
    rw [Nat.succ_add]
    cases hs : step s with
    | next u =>
      rw [run_succ hs] at h ⊢
      exact ih h
    | fault r =>
      have hcore : Sys2Proof.core.step s = .fault r := hs
      simp only [Host.Core.run, hcore] at h
      cases h
    | refused r =>
      have hcore : Sys2Proof.core.step s = .refused r := hs
      simp only [Host.Core.run, hcore] at h
      cases h

/-! ## A micro-step on the sequencer's turn -/

/-- A pipeline step changes nothing outside the block. -/
theorem env_of_exec_pipe {s t : State} {i : Instr} {n : BitVec 5} (henc : encode i = .pipe n)
    (hexec : exec i s = .next t) : t.env = s.env := by
  cases i <;> cases henc
  case u16 =>
    cases hexec
    obtain ⟨k, -, hstep⟩ | ⟨v, k, -, -, hstep⟩ | ⟨v, w, -, -, hstep⟩ := s.stepU16_cases <;> rw [hstep] <;> rfl
  all_goals
    cases hexec
    exact State.settle_env _ _ _ _

/-- The transition of a legal computing block on the sequencer's turn. -/
theorem step_computing {s : State} (hinv : s.ce.Inv) (hm : s.ce.mode = .computing) (hturn : s.turn = .seq) :
    ∃ (i : Instr) (t : State), encode i = .pipe s.ce.step ∧ exec i s.tick = .next t ∧ step s = .next t := by
  obtain ⟨hlo, hhi⟩ := hinv.step_range hm
  obtain ⟨i, hdec, henc⟩ := decodePipe_of_in_range _ hlo hhi
  obtain ⟨t, hexec⟩ := exec_completes i s.tick
  have hfetch := (State.fetch_seq hturn).trans (State.microCode_computing hm)
  exact ⟨i, t, henc, hexec, (step_of_fetch_ok hfetch hdec).trans hexec⟩

/-- With no event listed none is listed after a pipeline step. -/
theorem events_of_exec_pipe {s t : State} {i : Instr} {n : BitVec 5} (hev : s.env.events = [])
    (henc : encode i = .pipe n) (hexec : exec i s.tick = .next t) : t.env.events = [] := by
  rw [env_of_exec_pipe henc hexec, State.tick_events, hev]
  rfl

/-- The transition of a loading block whose read is answered. -/
theorem step_loading {s : State} (hm : s.ce.mode = .loading) (hturn : s.turn = .seq) (hans : s.sourceAnswers = true)
    (hk : s.ce.ldcnt.toNat ≤ 21) : step s = .next (s.tick.loadStep s.ce.ldcnt) :=
  step_of_fetch_ok ((State.fetch_seq hturn).trans (State.microCode_loading hm hans)) (if_pos hk)

theorem State.loadStep_env (s : State) (k : BitVec 5) : (s.loadStep k).env = (s.afterRequest (srcAddr k)).env := by
  obtain ⟨-, h⟩ | ⟨d, -, h⟩ := s.loadStep_cases k <;> rw [h] <;> rfl

/-! ## The end of a compensation (R211) -/

/-- By the number of micro-steps left: each one completes the run, takes a fault or leaves one fewer. -/
theorem compensation_ends_within (d : Nat) {s : State} (hinv : s.ce.Inv) (hm : s.ce.mode = .computing)
    (hev : s.env.events = []) (hd : s.ce.step.toNat + d = 19) :
    ∃ (n : Nat) (t : State), n ≤ d ∧ Host.Core.run Sys2Proof.core n s = .next t ∧
      t.ce.busy = false ∧ (t.ce.done = true ∨ t.ce.fault = true) := by
  induction d generalizing s with
  | zero =>
    have := hinv.step_range hm
    omega
  | succ d ih =>
    obtain ⟨i, t, henc, hexec, hstep⟩ := step_computing hinv hm (State.turn_nil hev)
    have heffect : PipeEffect s.ce t.ce := pipeEffect_of_exec (s := s.tick) henc hexec
    have hinv' := everyStepKeepsLegality s t hinv hstep
    have hev' := events_of_exec_pipe hev henc hexec
    have hrun := run_one hstep
    generalize hc : t.ce = c at heffect
    cases heffect with
    | faults k x => exact ⟨1, t, by omega, hrun, by rw [hc]; rfl, .inr (by rw [hc]; rfl)⟩
    | completes v => exact ⟨1, t, by omega, hrun, by rw [hc]; rfl, .inl (by rw [hc]; rfl)⟩
    | advances hframe hnext hlt =>
      have hm' : t.ce.mode = .computing := by rw [hc, hframe]; exact hm
      obtain ⟨n, u, hn, hrun', hend⟩ := ih hinv' hm' hev' (by rw [hc, hnext]; bv_omega)
      exact ⟨n + 1, u, by omega, (run_succ hstep n).trans hrun', hend⟩

/-- Settles O53, by `compensation_ends_within`: the invariant keeps STEP in 1 to 18. -/
theorem compensationAlwaysEnds : Obligations.CompensationAlwaysEnds := by
  intro s hinv hm hev
  have hrange := hinv.step_range hm
  obtain ⟨n, t, hn, hrun⟩ := compensation_ends_within (19 - s.ce.step.toNat) hinv hm hev (by omega)
  exact ⟨n, t, by omega, hrun⟩

/-! ## The end of a load (R211) -/

theorem State.sourceAnswers_of_always {s : State} (hans : none ∉ s.env.srcAnswers) (hsilent : s.env.srcSilent = false) :
    s.sourceAnswers = true := by
  cases h : s.env.srcAnswers with
  | nil => rw [State.sourceAnswers_nil h, hsilent]; rfl
  | cons r rs =>
    cases r with
    | none => simp [h] at hans
    | some r => exact State.sourceAnswers_some h

/-- By the number of reads left: each one commits the file, takes a fault or leaves one fewer. -/
theorem load_ends_within (d : Nat) {s : State} (hinv : s.ce.Inv) (hm : s.ce.mode = .loading) (hev : s.env.events = [])
    (hans : none ∉ s.env.srcAnswers) (hsilent : s.env.srcSilent = false) (hd : s.ce.ldcnt.toNat + d = 22) :
    ∃ (n : Nat) (t : State), n ≤ d ∧ Host.Core.run Sys2Proof.core n s = .next t ∧
      t.ce.busy = false ∧ (t.ce.cvalid = true ∨ t.ce.fault = true) := by
  induction d generalizing s with
  | zero =>
    have := hinv.ldcnt_le
    omega
  | succ d ih =>
    have hstep := step_loading hm (State.turn_nil hev) (State.sourceAnswers_of_always hans hsilent) hinv.ldcnt_le
    have heffect : LoadEffect s.ce (s.tick.loadStep s.ce.ldcnt).ce := loadEffect_of_loadStep s.tick hinv.ldcnt_le
    have henv := s.tick.loadStep_env s.ce.ldcnt
    have hrun := run_one hstep
    have hinv' := everyStepKeepsLegality s _ hinv hstep
    generalize s.tick.loadStep s.ce.ldcnt = t at hstep heffect henv hrun hinv'
    generalize hc : t.ce = c at heffect
    cases heffect with
    | fails => exact ⟨1, t, by omega, hrun, by rw [hc]; rfl, .inr (by rw [hc]; rfl)⟩
    | commits => exact ⟨1, t, by omega, hrun, by rw [hc]; rfl, .inl (by rw [hc])⟩
    | keeps b hlt =>
      have hans' : none ∉ t.env.srcAnswers := fun h => hans (List.mem_of_mem_tail (by simpa [henv] using h))
      obtain ⟨n, u, hn, hrun', hend⟩ := ih hinv' (by rw [hc]; exact hm) (by simp [henv, hev]) hans' (by simpa [henv])
        (by rw [hc]; bv_omega)
      exact ⟨n + 1, u, by omega, (run_succ hstep n).trans hrun', hend⟩

/-- Settles O54, by `load_ends_within`: the invariant keeps LDCNT at most 21. -/
theorem loadEndsIfTheSourceAnswers : Obligations.LoadEndsIfTheSourceAnswers := by
  intro s hinv hm hev hans hsilent
  have hle := hinv.ldcnt_le
  obtain ⟨n, t, hn, hrun⟩ := load_ends_within (22 - s.ce.ldcnt.toNat) hinv hm hev hans hsilent (by omega)
  exact ⟨n, t, by omega, hrun⟩

end Sys2Proof.Machine
end

section
/-! PROOFS. A load of listed answers: the requests made, the bytes kept, the file committed or the fault taken
(spec/40_host_access_and_commands.md R104, spec/20_memory.md R65, R75, spec/60_exceptions.md R183). -/

namespace Sys2Proof.Machine

/-! ## The buffer after several reads -/

/-- `LDBUF` after the reads from number `k` on have answered the bytes given. -/
def storeBytes (buf : Vector (Option Byte) 22) (k : Nat) : List Byte → Vector (Option Byte) 22
  | [] => buf
  | b :: bs => storeBytes (buf.setIfInBounds k (some b)) (k + 1) bs

theorem storeBytes_append_singleton (buf : Vector (Option Byte) 22) (k : Nat) (bs : List Byte) (b : Byte) :
    storeBytes buf k (bs ++ [b]) = (storeBytes buf k bs).setIfInBounds (k + bs.length) (some b) := by
  induction bs generalizing buf k with
  | nil => rfl
  | cons c bs ih =>
    rw [List.cons_append, storeBytes, ih, storeBytes, List.length_cons]
    congr 1
    omega

theorem storeBytes_getElem_of_lt (buf : Vector (Option Byte) 22) (bs : List Byte) {j k : Nat} (hj : j < 22) (hjk : j < k) :
    (storeBytes buf k bs)[j] = buf[j] := by
  induction bs generalizing buf k with
  | nil => rfl
  | cons b bs ih =>
    rw [storeBytes, ih _ (by omega), Vector.getElem_setIfInBounds, if_neg (by omega)]

/-- Read `k + j` is kept at its own place. -/
theorem storeBytes_getElem (buf : Vector (Option Byte) 22) (bs : List Byte) {j k : Nat} (hj : j < bs.length)
    (hk : k + j < 22) : (storeBytes buf k bs)[k + j] = some bs[j] := by
  induction bs generalizing buf j k with
  | nil => simp at hj
  | cons b bs ih =>
    rw [storeBytes]
    cases j with
    | zero =>
      rw [storeBytes_getElem_of_lt _ _ _ (by omega), Vector.getElem_setIfInBounds, if_pos (by omega)]
      rfl
    | succ j =>
      have h := ih (buf.setIfInBounds k (some b)) (j := j) (k := k + 1) (by simpa using hj) (by omega)
      simpa [Nat.add_assoc, Nat.add_comm 1 j] using h

/-! ## The requests of several reads -/

/-- The addresses of the `n` reads from number `k` on, in order. -/
def requestsFrom (k : BitVec 5) : Nat → List Byte
  | 0 => []
  | n + 1 => srcAddr k :: requestsFrom (k + 1#5) n

theorem requestsFrom_length (k : BitVec 5) (n : Nat) : (requestsFrom k n).length = n := by
  induction n generalizing k with
  | zero => rfl
  | succ n ih => rw [requestsFrom, List.length_cons, ih]

/-- The 22 reads of a load are those of the coefficients in order, the most significant byte first (R75). -/
theorem requestsFrom_all :
    requestsFrom 0#5 22 = (List.finRange 11).flatMap fun i => [Config.srcAddrHi i, Config.srcAddrLo i] := by
  rfl

/-! ## Reads that succeed -/

theorem getLsbD_success (b : Byte) : (0#1 ++ b : BitVec 9).getLsbD 8 = false := by
  revert b
  decide

theorem extractLsb'_success (b : Byte) : (0#1 ++ b : BitVec 9).extractLsb' 0 8 = b := by
  revert b
  decide

/-- One read whose answer is listed. -/
theorem step_of_listed_answer {s : State} {r : BitVec 9} {rs : List (Option (BitVec 9))} (hm : s.ce.mode = .loading)
    (hev : s.env.events = []) (hans : s.env.srcAnswers = some r :: rs) (hk : s.ce.ldcnt.toNat ≤ 21) :
    step s = .next (s.tick.loadStep s.ce.ldcnt) ∧ s.tick.srcAnswer (srcAddr s.ce.ldcnt) = r ∧
      (s.tick.loadStep s.ce.ldcnt).env.events = [] ∧ (s.tick.loadStep s.ce.ldcnt).env.srcAnswers = rs ∧
      (s.tick.loadStep s.ce.ldcnt).env.srcRequests = srcAddr s.ce.ldcnt :: s.env.srcRequests := by
  refine ⟨step_loading hm (State.turn_nil hev) (State.sourceAnswers_some hans) hk, State.srcAnswer_some _ hans, ?_⟩
  rw [State.loadStep_env]
  simp [hev, hans]

/-- Reads that succeed before the last one are kept one after the other. -/
theorem run_of_successful_reads (bs : List Byte) {s : State} {rest : List (Option (BitVec 9))} (hm : s.ce.mode = .loading)
    (hev : s.env.events = []) (hk : s.ce.ldcnt.toNat + bs.length ≤ 21)
    (hans : s.env.srcAnswers = bs.map (fun b => some (0#1 ++ b)) ++ rest) :
    ∃ t : State, Host.Core.run Sys2Proof.core bs.length s = .next t ∧
      t.ce = { s.ce with ldbuf := storeBytes s.ce.ldbuf s.ce.ldcnt.toNat bs,
                         ldcnt := s.ce.ldcnt + BitVec.ofNat 5 bs.length } ∧
      t.env.events = [] ∧ t.env.srcAnswers = rest ∧
      t.env.srcRequests = (requestsFrom s.ce.ldcnt bs.length).reverse ++ s.env.srcRequests := by
  induction bs generalizing s with
  | nil => exact ⟨s, rfl, by simp [storeBytes], hev, hans, rfl⟩
  | cons b bs ih =>
    rw [List.length_cons] at hk
    obtain ⟨hstep, hr, hev', hans', hreq'⟩ := step_of_listed_answer hm hev hans (by omega)
    have hce : (s.tick.loadStep s.ce.ldcnt).ce = { s.ce with
        ldbuf := s.ce.ldbuf.setIfInBounds s.ce.ldcnt.toNat (some b), ldcnt := s.ce.ldcnt + 1#5 } := by
      rw [State.loadStep_of_byte (by rw [hr, getLsbD_success]), hr, extractLsb'_success]
      exact CE.takeLoadByte_of_lt _ _ _ (by omega)
    generalize s.tick.loadStep s.ce.ldcnt = u at hstep hev' hans' hreq' hce
    have hcnt : u.ce.ldcnt.toNat = s.ce.ldcnt.toNat + 1 := by rw [hce]; bv_omega
    obtain ⟨t, hrun, hct, hevt, hanst, hreqt⟩ := ih (s := u) (by rw [hce]; exact hm) hev' (by omega) hans'
    refine ⟨t, (run_succ hstep _).trans hrun, ?_, hevt, hanst, ?_⟩
    · rw [hct, hcnt, hce]
      simp only [storeBytes, List.length_cons]
      congr 1
      bv_omega
    · rw [hreqt, hreq', hce]
      simp [requestsFrom]

/-- Settles O56: the successful reads only fill the buffer, and the failing one takes the transport fault. -/
theorem failedReadEndsTheLoad : Obligations.FailedReadEndsTheLoad := by
  intro s bs r rest hm hcnt hev hlen hfail hans
  obtain ⟨u, hrun, hce, hevu, hansu, hrequ⟩ := run_of_successful_reads bs hm hev (by rw [hcnt]; simpa using hlen) hans
  have hk : u.ce.ldcnt = BitVec.ofNat 5 bs.length := by rw [hce, hcnt]; simp
  have hkNat : u.ce.ldcnt.toNat = bs.length := by
    rw [hk, BitVec.toNat_ofNat]
    omega
  obtain ⟨hstep, hr, -, hanst, hreqt⟩ := step_of_listed_answer (s := u) (by rw [hce]; exact hm) hevu hansu (by omega)
  have hct : (u.tick.loadStep u.ce.ldcnt).ce = u.ce.faultEntry .transport u.ce.ldcnt := by
    rw [State.loadStep_of_fail (by rw [hr, hfail])]
    rfl
  have hfinfo : Cause.transport.code ++ BitVec.ofNat 5 bs.length = BitVec.ofNat 8 (0x20 + bs.length) := by
    apply BitVec.eq_of_toNat_eq
    rw [Cause.toNat_code_append, BitVec.toNat_ofNat, BitVec.toNat_ofNat]
    simp [Cause.code]
    omega
  have hct' : (u.tick.loadStep u.ce.ldcnt).ce =
      { s.ce with finfo := BitVec.ofNat 8 (0x20 + bs.length), fault := true, mode := .idle, step := 0#5, ldcnt := 0#5,
                  ldbuf := u.ce.ldbuf } := by
    rw [hct, CE.faultEntry, hk, hfinfo, hce]
  refine ⟨_, (run_add hrun 1).trans (run_one hstep), ?_, fun hinv => ?_, hanst, ?_⟩
  · rw [hct']
  · have hv := hinv.cvalid_of_loading hm
    have hcoef := hinv.coef.1
    rw [hct']
    exact ⟨by simpa [hv] using hcoef, hv⟩
  · rw [hreqt, hrequ]
    simp [requestsFrom_length]
    omega

/-- Settles O55: 21 reads fill the buffer, and the last one commits the file. -/
theorem successfulLoadCommitsTheAnsweredBytes : Obligations.SuccessfulLoadCommitsTheAnsweredBytes := by
  intro s bs rest hm hcnt hev hans
  have hbs : bs.toList = bs.pop.toList ++ [bs.back] := by
    rw [← Vector.toList_push, Vector.push_pop_back]
  have hlen : bs.pop.toList.length = 21 := by simp
  rw [hbs, List.map_append, List.append_assoc] at hans
  obtain ⟨u, hrun, hce, hevu, hansu, hrequ⟩ :=
    run_of_successful_reads bs.pop.toList hm hev (by rw [hcnt, hlen]; decide) hans
  rw [hlen] at hrun hce hrequ
  have hk : u.ce.ldcnt = 21#5 := by rw [hce, hcnt]; rfl
  obtain ⟨hstep, hr, -, hanst, hreqt⟩ := step_of_listed_answer (s := u) (by rw [hce]; exact hm) hevu hansu (by rw [hk]; decide)
  have hbuf : u.ce.ldbuf.setIfInBounds 21 (some bs.back) = storeBytes s.ce.ldbuf 0 bs.toList := by
    rw [hbs, storeBytes_append_singleton, hlen, hce, hcnt]
    rfl
  have hct : (u.tick.loadStep u.ce.ldcnt).ce =
      { u.ce with
        ldbuf := storeBytes s.ce.ldbuf 0 bs.toList
        coef := some (loadFile u.tick.env.draws (storeBytes s.ce.ldbuf 0 bs.toList))
        cvalid := true, mode := .idle, ldcnt := 0#5 } := by
    rw [State.loadStep_of_byte (by rw [hr, getLsbD_success]), hr, extractLsb'_success, ← hbuf]
    exact CE.takeLoadByte_of_last _ _ _ (by rw [hk]; rfl)
  refine ⟨_, loadFile u.tick.env.draws (storeBytes s.ce.ldbuf 0 bs.toList), (run_add hrun 1).trans (run_one hstep),
    fun i => ?bytes, ?block, hanst, ?requests⟩
  case bytes =>
    have hkept : ∀ (j : Nat) (hj : j < 22), (storeBytes s.ce.ldbuf 0 bs.toList)[j] = some bs[j] := by
      intro j hj
      have h := storeBytes_getElem s.ce.ldbuf bs.toList (j := j) (k := 0) (by simpa using hj) (by omega)
      simpa using h
    exact loadFile_toNat _ i (hkept _ (by omega)) (hkept _ (by omega))
  case block => rw [hct, hce]
  case requests =>
    rw [hreqt, hrequ, ← requestsFrom_all, hk, hcnt]
    rfl

end Sys2Proof.Machine
end

section
/-! PROOFS. A run on well-formed inputs computes the reference (spec/42_compensate_temperature.md R134, spec/43_compensate_pressure.md
R154, R155, spec/00_scope.md R14). -/

namespace Sys2Proof.Machine

/-! ## Registers that hold an integer -/

/-- The register holds the integer, as a signed number. -/
def Holds (r : Option W32) (z : Int) : Prop := ∃ v, r = some v ∧ v.toInt = z

/-- The register holds the integer, as an unsigned number. -/
def HoldsUnsigned (r : Option W32) (z : Int) : Prop := ∃ v, r = some v ∧ (v.toNat : Int) = z

@[simp] theorem holds_some {v : W32} {z : Int} : Holds (some v) z ↔ v.toInt = z := by simp [Holds]

@[simp] theorem holdsUnsigned_some {v : W32} {z : Int} : HoldsUnsigned (some v) z ↔ (v.toNat : Int) = z := by
  simp [HoldsUnsigned]

theorem Holds.regValue {r : Option W32} {z : Int} (h : Holds r z) (draws : Nat) (a : Byte) :
    (regValue draws a r).toInt = z := by
  obtain ⟨v, rfl, hv⟩ := h
  exact hv

theorem HoldsUnsigned.regValue {r : Option W32} {z : Int} (h : HoldsUnsigned r z) (draws : Nat) (a : Byte) :
    ((regValue draws a r).toNat : Int) = z := by
  obtain ⟨v, rfl, hv⟩ := h
  exact hv

/-! ## The inputs of a run -/

/-- The inputs are those of the file, the sample and the level; no free value is among them while all of it is held. -/
theorem State.inputs_congr {s t : State} (hcoef : t.ce.coef = s.ce.coef) (hsample : t.ce.sample = s.ce.sample)
    (hoss : t.ce.ossIn = s.ce.ossIn) (hfile : s.ce.coef.isSome = true)
    (hheld : ∀ k : Fin 6, s.ce.sample[k].isSome = true) : t.inputs = s.inputs := by
  obtain ⟨f, hf⟩ := Option.isSome_iff_exists.1 hfile
  have hcoefs : ∀ i : Fin 11, t.coefValue i = s.coefValue i := by
    intro i
    have hbits : t.coefBits i = s.coefBits i := by
      rw [s.coefBits_of_some i hf, t.coefBits_of_some i (hcoef.trans hf)]
    rw [State.coefValue, State.coefValue, hbits]
  have hbytes : ∀ k : Fin 6, t.sampleByte k = s.sampleByte k := by
    intro k
    obtain ⟨d, hd⟩ := Option.isSome_iff_exists.1 (hheld k)
    rw [s.sampleByte_of_some k hd, t.sampleByte_of_some k (by rw [hsample]; exact hd)]
  simp only [State.inputs, State.a1, State.a2, State.a3, State.a4, State.a5, State.a6, State.cb1, State.cb2, State.mc,
    State.md, State.ut, State.utBits, State.up, State.oss, hcoefs, hbytes, hoss]

/-- A legal computing block holds all its inputs, so any state around the same file, sample and level has them. -/
theorem CE.Inv.inputs_congr {s t : State} (h : s.ce.Inv) (hm : s.ce.mode = .computing) (hcoef : t.ce.coef = s.ce.coef)
    (hsample : t.ce.sample = s.ce.sample) (hoss : t.ce.ossIn = s.ce.ossIn) : t.inputs = s.inputs :=
  State.inputs_congr hcoef hsample hoss (h.coef.1 ▸ h.cvalid_of_computing hm) (h.sample.2 hm)

/-! ## The run in progress -/

/-- The registers hold what the reference gives them, as long as they are in use. -/
def CE.Computes (i : Inputs) (c : CE) : Prop :=
  (2 ≤ c.step.toNat ∧ c.step.toNat ≤ 3 → Holds c.x1 i.x1) ∧
    (c.step.toNat = 3 → Holds c.x2 i.x2) ∧
    (4 ≤ c.step.toNat → Holds c.b5 i.b5) ∧
    (5 ≤ c.step.toNat → Holds c.temp i.temp) ∧
    (6 ≤ c.step.toNat → Holds c.b6 i.b6) ∧
    (7 ≤ c.step.toNat ∧ c.step.toNat ≤ 8 → Holds c.x1 ((i.b2 * i.q) / 2048)) ∧
    (c.step.toNat = 8 → Holds c.x2 ((i.a2 * i.b6) / 2048)) ∧
    (c.step.toNat = 9 → Holds c.x3 i.x3a) ∧
    (10 ≤ c.step.toNat → Holds c.b3 i.b3) ∧
    (11 ≤ c.step.toNat ∧ c.step.toNat ≤ 12 → Holds c.x1 ((i.a3 * i.b6) / 8192)) ∧
    (c.step.toNat = 12 → Holds c.x2 ((i.b1 * i.q) / 65536)) ∧
    (13 ≤ c.step.toNat → Holds c.x3 i.x3b) ∧
    (14 ≤ c.step.toNat → HoldsUnsigned c.b4 i.b4) ∧
    (15 ≤ c.step.toNat → HoldsUnsigned c.b7 i.b7) ∧
    (16 ≤ c.step.toNat → Holds c.p i.p) ∧
    (17 ≤ c.step.toNat → Holds c.x1 ((i.p / 256) * (i.p / 256) * 3038 / 65536)) ∧
    (c.step.toNat = 18 → Holds c.x2 ((-7357 * i.p) / 65536))

/-- A pipeline step ends by writing a register and moving on, and the block still computes the reference. -/
def Advances (i : Instr) (s : State) : Prop :=
  ∃ c : CE, exec i s = .next (s.withCE c) ∧ s.ce.SameButForRun c ∧ c.step = s.ce.step + 1#5 ∧ c.Computes s.inputs

/-- The quotient of step 15 over the integers, when nothing is lost by the doubling. -/
theorem u15Result_eq {b7 b4 : Nat} (h : (if (b7 : Int) < 2147483648 then 2 * (b7 : Int) / b4 else 2 * ((b7 : Int) / b4)) ≤ 215295) :
    (u15Result b7 b4 : Int) = if (b7 : Int) < 2147483648 then 2 * (b7 : Int) / b4 else 2 * ((b7 : Int) / b4) := by
  have hcast : ((b7 / b4 : Nat) : Int) = (b7 : Int) / b4 := Int.natCast_ediv b7 b4
  unfold u15Result
  split
  case isTrue hlow =>
    rw [if_pos (by omega), Int.natCast_ediv]
    rfl
  case isFalse hhigh =>
    rw [if_neg (by omega), ← hcast] at h ⊢
    omega

section PipelineSteps
variable {s : State} (hwf : s.inputs.WellFormed)

include hwf in
theorem u1_advances (h : s.ce.RunsAt 1#5) : Advances .u1 s := by
  obtain ⟨-, -, hdone, -⟩ := step1WritesX1OrOverflows s
  obtain ⟨v, hv, -, -, hexec⟩ := hdone ((fitsS32_iff _).1 hwf.step1)
  have hx1 : v.toInt = s.inputs.x1 := hv
  exact ⟨_, hexec, rfl, by rw [h.step]; rfl, by simp [CE.Computes, hx1]⟩

include hwf in
theorem u2_advances (h : s.ce.RunsAt 2#5) (hc : s.ce.Computes s.inputs) : Advances .u2 s := by
  obtain ⟨-, hden, -, hdone, -⟩ := step2DividesOrFaults s
  simp [CE.Computes, h.step] at hc
  have hx1 : s.x1.toInt = s.inputs.x1 := hc.regValue _ _
  have hrange := hden (h.operandBounds.x1OfStep1 (by decide))
  obtain ⟨v, hv, -, -, hexec⟩ := hdone (by rw [hx1]; exact hwf.step2) ⟨by omega, by omega⟩
  have hx2 : v.toInt = s.inputs.x2 := by
    rw [hv, ← tdiv_eq_sign_mul_natAbs_div, hx1]
    rfl
  exact ⟨_, hexec, rfl, by rw [h.step]; rfl, by simp [CE.Computes, hc, hx2]⟩

theorem u3_advances (h : s.ce.RunsAt 3#5) (hc : s.ce.Computes s.inputs) : Advances .u3 s := by
  obtain ⟨hrange, -, hdone, -⟩ := steps3And8AddX1AndX2 s
  simp [CE.Computes, h.step] at hc
  obtain ⟨hx1, hx2⟩ := hc
  have hsum := hrange (h.operandBounds.x1OfStep1 (by decide)) (h.operandBounds.x2OfStep2 (by decide))
  obtain ⟨v, hv, hexec, -⟩ := hdone ⟨by omega, by omega⟩
  have hb5 : v.toInt = s.inputs.b5 := by
    rw [hv, State.x1, State.x2, hx1.regValue, hx2.regValue]
    rfl
  exact ⟨_, hexec, rfl, by rw [h.step]; rfl, by simp [CE.Computes, hb5]⟩

theorem u4_advances (h : s.ce.RunsAt 4#5) (hc : s.ce.Computes s.inputs) : Advances .u4 s := by
  obtain ⟨hdone, -⟩ := step4WritesTemperature s
  simp [CE.Computes, h.step] at hc
  have hrange := h.operandBounds.b5 (by decide)
  obtain ⟨v, hv, hexec⟩ := hdone (by omega)
  have htemp : v.toInt = s.inputs.temp := by
    rw [hv, State.b5, hc.regValue]
    rfl
  exact ⟨_, hexec, rfl, by rw [h.step]; rfl, by simp [CE.Computes, hc, htemp]⟩

theorem u5_advances (h : s.ce.RunsAt 5#5) (hc : s.ce.Computes s.inputs) : Advances .u5 s := by
  obtain ⟨hdone, -⟩ := step5SubtractsIntoB6 s
  simp [CE.Computes, h.step] at hc
  have hrange := h.operandBounds.b5 (by decide)
  obtain ⟨v, hv, hexec⟩ := hdone (by omega)
  have hb6 : v.toInt = s.inputs.b6 := by
    rw [hv, State.b5, hc.1.regValue]
    rfl
  exact ⟨_, hexec, rfl, by rw [h.step]; rfl, by simp [CE.Computes, hc, hb6]⟩

include hwf in
theorem u6_advances (h : s.ce.RunsAt 6#5) (hc : s.ce.Computes s.inputs) : Advances .u6 s := by
  obtain ⟨-, hsmall⟩ := step6WritesX1OrOverflows s
  simp [CE.Computes, h.step] at hc
  obtain ⟨hb5, htemp, hb6⟩ := hc
  have hb6v : s.b6.toInt = s.inputs.b6 := hb6.regValue _ _
  rw [hb6v] at hsmall
  obtain ⟨-, -, -, hdone, -⟩ := hsmall ((mul_self_fits_iff _).1 ((fitsS32_iff _).1 hwf.step6a))
  obtain ⟨v, hv, -, -, hexec⟩ := hdone ((fitsS32_iff _).1 hwf.step6b)
  have hx1 : v.toInt = s.inputs.b2 * s.inputs.q / 2048 := hv
  exact ⟨_, hexec, rfl, by rw [h.step]; rfl, by simp [CE.Computes, hb5, htemp, hb6, hx1]⟩

theorem u7_advances (h : s.ce.RunsAt 7#5) (hc : s.ce.Computes s.inputs) : Advances .u7 s := by
  obtain ⟨hrange, hdone, -⟩ := steps7And10ScaleB6 s
  simp [CE.Computes, h.step] at hc
  obtain ⟨hb5, htemp, hb6, hx1⟩ := hc
  have hle := h.operandBounds.b6AfterStep6 (by decide)
  obtain ⟨hlo, hhi, -⟩ := hrange (by omega)
  obtain ⟨v, hv, hexec⟩ := hdone ⟨hlo, hhi⟩
  have hx2 : v.toInt = s.inputs.a2 * s.inputs.b6 / 2048 := by
    rw [hv, State.b6, hb6.regValue]
    rfl
  exact ⟨_, hexec, rfl, by rw [h.step]; rfl, by simp [CE.Computes, hb5, htemp, hb6, hx1, hx2]⟩

theorem u8_advances (h : s.ce.RunsAt 8#5) (hc : s.ce.Computes s.inputs) : Advances .u8 s := by
  obtain ⟨-, -, hdone, -⟩ := steps3And8AddX1AndX2 s
  simp [CE.Computes, h.step] at hc
  obtain ⟨hb5, htemp, hb6, hx1, hx2⟩ := hc
  have hrange1 := h.operandBounds.x1OfStep6 (by decide)
  have hrange2 := h.operandBounds.x2OfStep7 (by decide)
  obtain ⟨v, hv, -, hexec⟩ := hdone ⟨by omega, by omega⟩
  have hx3 : v.toInt = s.inputs.x3a := by
    rw [hv, State.x1, State.x2, hx1.regValue, hx2.regValue]
    rfl
  exact ⟨_, hexec, rfl, by rw [h.step]; rfl, by simp [CE.Computes, hb5, htemp, hb6, hx3]⟩

theorem u9_advances (h : s.ce.RunsAt 9#5) (hc : s.ce.Computes s.inputs) : Advances .u9 s := by
  obtain ⟨hrange, hdone, -⟩ := step9WritesB3 s
  simp [CE.Computes, h.step] at hc
  obtain ⟨hb5, htemp, hb6, hx3⟩ := hc
  have hle := h.operandBounds.x3OfStep8 (by decide)
  obtain ⟨-, hfitsB, hfitsC, hfitsSum, -⟩ := hrange (by omega)
  obtain ⟨v, hv, hexec⟩ := hdone ⟨hfitsB, hfitsC, hfitsSum⟩
  have hb3 : v.toInt = s.inputs.b3 := by
    rw [hv, State.x3, hx3.regValue]
    rfl
  exact ⟨_, hexec, rfl, by rw [h.step]; rfl, by simp [CE.Computes, hb5, htemp, hb6, hb3]⟩

theorem u10_advances (h : s.ce.RunsAt 10#5) (hc : s.ce.Computes s.inputs) : Advances .u10 s := by
  obtain ⟨hrange, -, -, hdone, -⟩ := steps7And10ScaleB6 s
  simp [CE.Computes, h.step] at hc
  obtain ⟨hb5, htemp, hb6, hb3⟩ := hc
  have hle := h.operandBounds.b6AfterStep6 (by decide)
  obtain ⟨-, -, -, -, hlo, hhi, -⟩ := hrange (by omega)
  obtain ⟨v, hv, hexec⟩ := hdone ⟨hlo, hhi⟩
  have hx1 : v.toInt = s.inputs.a3 * s.inputs.b6 / 8192 := by
    rw [hv, State.b6, hb6.regValue]
    rfl
  exact ⟨_, hexec, rfl, by rw [h.step]; rfl, by simp [CE.Computes, hb5, htemp, hb6, hb3, hx1]⟩

include hwf in
theorem u11_advances (h : s.ce.RunsAt 11#5) (hc : s.ce.Computes s.inputs) : Advances .u11 s := by
  obtain ⟨-, hsmall⟩ := step11WritesX2OrOverflows s
  simp [CE.Computes, h.step] at hc
  obtain ⟨hb5, htemp, hb6, hb3, hx1⟩ := hc
  have hb6v : s.b6.toInt = s.inputs.b6 := hb6.regValue _ _
  rw [hb6v] at hsmall
  obtain ⟨-, hdone, -⟩ := hsmall ((mul_self_fits_iff _).1 ((fitsS32_iff _).1 hwf.step6a))
  obtain ⟨v, hv, -, -, hexec⟩ := hdone ((fitsS32_iff _).1 hwf.step11)
  have hx2 : v.toInt = s.inputs.b1 * s.inputs.q / 65536 := hv
  exact ⟨_, hexec, rfl, by rw [h.step]; rfl, by simp [CE.Computes, hb5, htemp, hb6, hb3, hx1, hx2]⟩

theorem u12_advances (h : s.ce.RunsAt 12#5) (hc : s.ce.Computes s.inputs) : Advances .u12 s := by
  obtain ⟨hrange, hdone, -⟩ := step12WritesX3 s
  simp [CE.Computes, h.step] at hc
  obtain ⟨hb5, htemp, hb6, hb3, hx1, hx2⟩ := hc
  have hle1 := h.operandBounds.x1OfStep10 (by decide)
  have hle2 := h.operandBounds.x2OfStep11 (by decide)
  obtain ⟨hfits, hfitsSum, -⟩ := hrange (by omega) hle2.1 hle2.2
  obtain ⟨v, hv, hexec⟩ := hdone ⟨hfits, hfitsSum⟩
  have hx3 : v.toInt = s.inputs.x3b := by
    rw [hv, State.x1, State.x2, hx1.regValue, hx2.regValue]
    rfl
  exact ⟨_, hexec, rfl, by rw [h.step]; rfl, by simp [CE.Computes, hb5, htemp, hb6, hb3, hx3]⟩

include hwf in
theorem u13_advances (h : s.ce.RunsAt 13#5) (hc : s.ce.Computes s.inputs) : Advances .u13 s := by
  obtain ⟨-, -, hdone, -⟩ := step13WritesB4Unsigned s
  simp [CE.Computes, h.step] at hc
  obtain ⟨hb5, htemp, hb6, hb3, hx3⟩ := hc
  have hle := h.operandBounds.x3OfStep12 (by decide)
  have hx3v : s.x3.toInt = s.inputs.x3b := hx3.regValue _ _
  have ha4 : (s.a4.toNat : Int) = s.inputs.a4 := by
    have hrange : 0 ≤ s.a4.toInt ∧ s.a4.toInt ≤ 65535 := s.coefValue_range_unsigned 3 rfl
    have hmod := toNat_eq_toInt_emod s.a4
    change (s.a4.toNat : Int) = s.a4.toInt
    omega
  obtain ⟨v, hv, -, hexec⟩ := hdone (by omega)
  have hlo := hwf.step13a
  have hprod := hwf.step13b
  have hb4 : (v.toNat : Int) = s.inputs.b4 := by
    rw [hv, hx3v, ha4, Int.emod_eq_of_lt hlo (by omega), Int.emod_eq_of_lt ?_ hprod]
    · rfl
    · exact mul_nonneg (by omega) hlo
  exact ⟨_, hexec, rfl, by rw [h.step]; rfl, by simp [CE.Computes, hb5, htemp, hb6, hb3, hx3, hb4]⟩

include hwf in
theorem u14_advances (h : s.ce.RunsAt 14#5) (hc : s.ce.Computes s.inputs) : Advances .u14 s := by
  obtain ⟨v, -, hexec, hexact⟩ := step14WritesB7Unsigned s
  simp [CE.Computes, h.step] at hc
  obtain ⟨hb5, htemp, hb6, hb3, hx3, hb4⟩ := hc
  have hb3v : s.b3.toInt = s.inputs.b3 := hb3.regValue _ _
  rw [hb3v] at hexact
  have hb7 : (v.toNat : Int) = s.inputs.b7 := hexact hwf.step14a (Int.le_of_lt_add_one hwf.step14b)
  exact ⟨_, hexec, rfl, by rw [h.step]; rfl, by simp [CE.Computes, hb5, htemp, hb6, hb3, hx3, hb4, hb7]⟩

include hwf in
theorem u15_advances (h : s.ce.RunsAt 15#5) (hc : s.ce.Computes s.inputs) : Advances .u15 s := by
  obtain ⟨-, -, hdone, -⟩ := step15DividesOnTwoPaths s
  simp [CE.Computes, h.step] at hc
  obtain ⟨hb5, htemp, hb6, hb3, hx3, hb4, hb7⟩ := hc
  have hb4v : (s.b4.toNat : Int) = s.inputs.b4 := hb4.regValue _ _
  have hb7v : (s.b7.toNat : Int) = s.inputs.b7 := hb7.regValue _ _
  have hle := hwf.step16
  have hne := hwf.step15a
  have hresult : (u15Result s.b7.toNat s.b4.toNat : Int) = s.inputs.p := by
    rw [Inputs.p, ← hb4v, ← hb7v] at hle ⊢
    exact u15Result_eq hle
  obtain ⟨v, hv, hexec⟩ := hdone (by omega) (show u15Result s.b7.toNat s.b4.toNat < 2147483648 by omega)
  have hp : v.toInt = s.inputs.p := hv.trans hresult
  exact ⟨_, hexec, rfl, by rw [h.step]; rfl, by simp [CE.Computes, hb5, htemp, hb6, hb3, hx3, hb4, hb7, hp]⟩

include hwf in
theorem u16_advances (h : s.ce.RunsAt 16#5) (hc : s.ce.Computes s.inputs) : Advances .u16 s := by
  obtain ⟨hnonneg, -⟩ := step16AssignsX1Twice s
  simp [CE.Computes, h.step] at hc
  obtain ⟨hb5, htemp, hb6, hb3, hx3, hb4, hb7, hp⟩ := hc
  have hpv : s.p.toInt = s.inputs.p := hp.regValue _ _
  have hrange := h.operandBounds.pOfStep15 (by decide)
  have hle := hwf.step16
  obtain ⟨-, -, hsmall⟩ := hnonneg hrange.1
  obtain ⟨v, hv, -, hdone⟩ := hsmall (by omega)
  obtain ⟨w, hw, -, -, hexec⟩ := hdone (by omega)
  have hx1 : w.toInt = s.inputs.p / 256 * (s.inputs.p / 256) * 3038 / 65536 := by rw [hw, hv, hpv]
  exact ⟨_, hexec, rfl, by rw [h.step]; rfl, by simp [CE.Computes, hb5, htemp, hb6, hb3, hx3, hb4, hb7, hp, hx1]⟩

theorem u17_advances (h : s.ce.RunsAt 17#5) (hc : s.ce.Computes s.inputs) : Advances .u17 s := by
  obtain ⟨hrange, hdone, -⟩ := step17WritesX2 s
  simp [CE.Computes, h.step] at hc
  obtain ⟨hb5, htemp, hb6, hb3, hx3, hb4, hb7, hp, hx1⟩ := hc
  have hp215295 := h.operandBounds.pAfterStep16 (by decide)
  obtain ⟨hlo, hhi, -⟩ := hrange hp215295.1 hp215295.2
  obtain ⟨v, hv, hexec⟩ := hdone ⟨hlo, hhi⟩
  have hx2 : v.toInt = -7357 * s.inputs.p / 65536 := by rw [hv, State.p, hp.regValue]
  exact ⟨_, hexec, rfl, by rw [h.step]; rfl, by simp [CE.Computes, hb5, htemp, hb6, hb3, hx3, hb4, hb7, hp, hx1, hx2]⟩

end PipelineSteps

/-! ## The end of the run -/

/-- What a completed run on the inputs leaves, from the block it started with. -/
structure CE.Delivers (i : Inputs) (c c' : CE) : Prop where
  done : c'.done = true
  mode : c'.mode = .idle
  step : c'.step = 0#5
  fault : c'.fault = false
  temp : Holds c'.temp i.temp
  press : Holds c'.press i.press
  x1 : Holds c'.x1 ((i.p / 256) * (i.p / 256) * 3038 / 65536)
  x2 : Holds c'.x2 ((-7357 * i.p) / 65536)
  x3 : Holds c'.x3 i.x3b
  coef : c'.coef = c.coef
  sample : c'.sample = c.sample
  ossIn : c'.ossIn = c.ossIn
  ign : c'.ign = c.ign

theorem CE.Delivers.of_sameButForRun {i : Inputs} {c c₁ c' : CE} (hframe : c.SameButForRun c₁) (h : c₁.Delivers i c') :
    c.Delivers i c' := by
  rw [hframe] at h
  exact { h with }

theorem u18_delivers {s : State} (h : s.ce.RunsAt 18#5) (hc : s.ce.Computes s.inputs) :
    ∃ c : CE, exec .u18 s = .next (s.withCE c) ∧ s.ce.Delivers s.inputs c := by
  obtain ⟨hrange, hdone, -⟩ := step18WritesPressureAndCompletes s
  simp [CE.Computes, h.step, -neg_mul] at hc
  obtain ⟨-, htemp, -, -, hx3, -, -, hp, hx1, hx2⟩ := hc
  obtain ⟨hp0, hple⟩ := h.operandBounds.pAfterStep16 (by decide)
  obtain ⟨⟨hx1lo, hx1hi⟩, -⟩ := h.operandBounds.x1OfStep16 (by decide)
  obtain ⟨⟨hx2lo, hx2hi⟩, -⟩ := h.operandBounds.x2OfStep17 (by decide)
  obtain ⟨v, hv, hexec⟩ := hdone (hrange hp0 hple hx1lo hx1hi hx2lo hx2hi)
  have hpress : v.toInt = s.inputs.press := by
    rw [hv, State.x1, State.x2, State.p, hx1.regValue, hx2.regValue, hp.regValue]
    rfl
  refine ⟨_, hexec, ?_⟩
  exact { done := rfl, mode := rfl, step := rfl, fault := h.inv.fault_eq_false_of_busy h.not_idle, temp := htemp,
          press := holds_some.2 hpress, x1 := hx1, x2 := hx2, x3 := hx3, coef := rfl, sample := rfl, ossIn := rfl,
          ign := rfl }

/-- Every step but the last advances the computation of the reference. -/
theorem advances_of_lt {s : State} {n : BitVec 5} {i : Instr} (hwf : s.inputs.WellFormed) (h : s.ce.RunsAt n)
    (hc : s.ce.Computes s.inputs) (henc : encode i = .pipe n) (hlt : n.toNat < 18) : Advances i s := by
  cases i <;> cases henc
  case u1 => exact u1_advances hwf h
  case u2 => exact u2_advances hwf h hc
  case u3 => exact u3_advances h hc
  case u4 => exact u4_advances h hc
  case u5 => exact u5_advances h hc
  case u6 => exact u6_advances hwf h hc
  case u7 => exact u7_advances h hc
  case u8 => exact u8_advances h hc
  case u9 => exact u9_advances h hc
  case u10 => exact u10_advances h hc
  case u11 => exact u11_advances hwf h hc
  case u12 => exact u12_advances h hc
  case u13 => exact u13_advances hwf h hc
  case u14 => exact u14_advances hwf h hc
  case u15 => exact u15_advances hwf h hc
  case u16 => exact u16_advances hwf h hc
  case u17 => exact u17_advances h hc
  case u18 => exact absurd hlt (by decide)

/-- By the number of steps after the one at hand. -/
theorem run_delivers (d : Nat) {s : State} (hinv : s.ce.Inv) (hb : s.ce.Bounds) (hm : s.ce.mode = .computing)
    (hev : s.env.events = []) (hwf : s.inputs.WellFormed) (hc : s.ce.Computes s.inputs)
    (hd : s.ce.step.toNat + d = 18) :
    ∃ t : State, Host.Core.run Sys2Proof.core (d + 1) s = .next t ∧ s.ce.Delivers s.inputs t.ce := by
  induction d generalizing s with
  | zero =>
    obtain ⟨i, t, henc, hexec, hstep⟩ := step_computing hinv hm (State.turn_nil hev)
    have hlast : s.ce.step = 18#5 := by bv_omega
    have hinputs : s.tick.inputs = s.inputs := hinv.inputs_congr hm rfl rfl rfl
    obtain ⟨c, hexec', hdelivers⟩ := u18_delivers (s := s.tick) ⟨hinv, hb.1 hm, hm, hlast⟩ (hinputs.symm ▸ hc)
    rw [hlast] at henc
    cases i <;> cases henc
    cases hexec'.symm.trans hexec
    exact ⟨_, run_one hstep, hinputs ▸ hdelivers⟩
  | succ d ih =>
    obtain ⟨i, t, henc, hexec, hstep⟩ := step_computing hinv hm (State.turn_nil hev)
    have hinputs : s.tick.inputs = s.inputs := hinv.inputs_congr hm rfl rfl rfl
    obtain ⟨c, hexec', hframe, hnext, hc'⟩ := advances_of_lt (s := s.tick) (hinputs.symm ▸ hwf)
      ⟨hinv, hb.1 hm, hm, rfl⟩ (hinputs.symm ▸ hc) henc (by rw [State.tick_ce]; omega)
    have hev' := events_of_exec_pipe hev henc hexec
    cases hexec'.symm.trans hexec
    rw [hinputs] at hc'
    have hkeeps : (s.tick.withCE c).inputs = s.inputs :=
      hinv.inputs_congr hm (by rw [State.withCE_ce, hframe]; rfl) (by rw [State.withCE_ce, hframe]; rfl)
        (by rw [State.withCE_ce, hframe]; rfl)
    obtain ⟨u, hrun, hdelivers⟩ := ih (everyStepKeepsLegality s _ hinv hstep)
      (everyStepKeepsRegisterBounds s _ hinv hb hstep) (by rw [State.withCE_ce, hframe]; exact hm) hev'
      (hkeeps.symm ▸ hwf) (hkeeps.symm ▸ hc') (by rw [State.withCE_ce, hnext, State.tick_ce]; bv_omega)
    rw [hkeeps] at hdelivers
    exact ⟨u, (run_succ hstep _).trans hrun, hdelivers.of_sameButForRun hframe⟩

/-- Before its first step a run has no register in use. -/
theorem CE.Inv.bounds_of_first_step {c : CE} (h : c.Inv) (hm : c.mode = .computing) (hstep : c.step = 1#5) : c.Bounds := by
  have hdone := h.done_eq_false_of_busy (by rw [hm]; decide)
  refine ⟨fun _ => ?_, fun hd => by cases hdone.symm.trans hd⟩
  simp [CE.TemperatureBounds, CE.MiddleBounds, CE.PressureBounds, hstep]

/-- Settles O52: the 18 steps from the first one, where no register is in use yet. -/
theorem runComputesTheReference : Obligations.RunComputesTheReference := by
  intro s hinv hm hstep hev hwf
  have hb := hinv.bounds_of_first_step hm hstep
  obtain ⟨t, hrun, h⟩ := run_delivers 17 hinv hb hm hev hwf (by simp [CE.Computes, hstep]) (by rw [hstep]; rfl)
  obtain ⟨vt, htemp, hvt⟩ := h.temp
  obtain ⟨vp, hpress, hvp⟩ := h.press
  obtain ⟨w1, hx1, hw1⟩ := h.x1
  obtain ⟨w2, hx2, hw2⟩ := h.x2
  obtain ⟨w3, hx3, hw3⟩ := h.x3
  exact ⟨t, vt, vp, w1, w2, w3, hrun, h.done, h.mode, h.step, h.fault, htemp, hvt, hpress, hvp, hx1, hw1, hx2, hw2,
    hx3, hw3, h.coef, h.sample, h.ossIn, h.ign⟩

end Sys2Proof.Machine
end

section
/-! PROOFS. What the end of a run depends on: two runs on the same inputs, and a run with host transactions between its steps
(spec/00_scope.md R12, R13, spec/20_memory.md R73). -/

namespace Sys2Proof.Machine

/-! ## Two blocks with the same registers in use -/

/-- The two blocks are at the same step and every register that a step before it writes is the same in both (R27). -/
def CE.Agree (c c' : CE) : Prop :=
  c'.step = c.step ∧
    (2 ≤ c.step.toNat → c'.x1 = c.x1) ∧ (3 ≤ c.step.toNat → c'.x2 = c.x2) ∧ (4 ≤ c.step.toNat → c'.b5 = c.b5) ∧
    (5 ≤ c.step.toNat → c'.temp = c.temp) ∧ (6 ≤ c.step.toNat → c'.b6 = c.b6) ∧ (9 ≤ c.step.toNat → c'.x3 = c.x3) ∧
    (10 ≤ c.step.toNat → c'.b3 = c.b3) ∧ (14 ≤ c.step.toNat → c'.b4 = c.b4) ∧ (15 ≤ c.step.toNat → c'.b7 = c.b7) ∧
    (16 ≤ c.step.toNat → c'.p = c.p)

/-- The operands of step `n` are the same in both states. -/
structure State.OperandsAgree (s s' : State) (n : Nat) : Prop where
  a1 : s'.a1 = s.a1
  a2 : s'.a2 = s.a2
  a3 : s'.a3 = s.a3
  a4 : s'.a4 = s.a4
  a5 : s'.a5 = s.a5
  a6 : s'.a6 = s.a6
  cb1 : s'.cb1 = s.cb1
  cb2 : s'.cb2 = s.cb2
  mc : s'.mc = s.mc
  md : s'.md = s.md
  ut : s'.ut = s.ut
  up : s'.up = s.up
  oss : s'.oss = s.oss
  x1 : 2 ≤ n → s'.x1 = s.x1
  x2 : 3 ≤ n → s'.x2 = s.x2
  b5 : 4 ≤ n → s'.b5 = s.b5
  b6 : 6 ≤ n → s'.b6 = s.b6
  x3 : 9 ≤ n → s'.x3 = s.x3
  b3 : 10 ≤ n → s'.b3 = s.b3
  b4 : 14 ≤ n → s'.b4 = s.b4
  b7 : 15 ≤ n → s'.b7 = s.b7
  p : 16 ≤ n → s'.p = s.p

/-- A register that holds a value is read the same whatever the free values are. -/
theorem regValue_congr {r r' : Option W32} (h : r.isSome = true) (heq : r' = r) (draws draws' : Nat) (a : Byte) :
    regValue draws' a r' = regValue draws a r := by
  obtain ⟨v, rfl⟩ := Option.isSome_iff_exists.1 h
  rw [heq]
  rfl

theorem CE.Agree.operands {s s' : State} (h : s.ce.Agree s'.ce) (hinv : s.ce.Inv) (hm : s.ce.mode = .computing)
    (hin : s'.inputs = s.inputs) : s.OperandsAgree s' s.ce.step.toNat := by
  obtain ⟨-, hx1, hx2, hb5, -, hb6, hx3, hb3, hb4, hb7, hp⟩ := h
  obtain ⟨wx1, wx2, wb5, -, wb6, wx3, wb3, wb4, wb7, wp⟩ := hinv.work hm
  exact {
    a1 := BitVec.eq_of_toInt_eq (congrArg Inputs.a1 hin)
    a2 := BitVec.eq_of_toInt_eq (congrArg Inputs.a2 hin)
    a3 := BitVec.eq_of_toInt_eq (congrArg Inputs.a3 hin)
    a4 := BitVec.eq_of_toInt_eq (congrArg Inputs.a4 hin)
    a5 := BitVec.eq_of_toInt_eq (congrArg Inputs.a5 hin)
    a6 := BitVec.eq_of_toInt_eq (congrArg Inputs.a6 hin)
    cb1 := BitVec.eq_of_toInt_eq (congrArg Inputs.b1 hin)
    cb2 := BitVec.eq_of_toInt_eq (congrArg Inputs.b2 hin)
    mc := BitVec.eq_of_toInt_eq (congrArg Inputs.mc hin)
    md := BitVec.eq_of_toInt_eq (congrArg Inputs.md hin)
    ut := BitVec.eq_of_toInt_eq (congrArg Inputs.ut hin)
    up := BitVec.eq_of_toNat_eq (Int.ofNat.inj (congrArg Inputs.up hin))
    oss := congrArg Inputs.oss hin
    x1 := fun hn => regValue_congr (wx1 hn) (hx1 hn) _ _ _
    x2 := fun hn => regValue_congr (wx2 hn) (hx2 hn) _ _ _
    b5 := fun hn => regValue_congr (wb5 hn) (hb5 hn) _ _ _
    b6 := fun hn => regValue_congr (wb6 hn) (hb6 hn) _ _ _
    x3 := fun hn => regValue_congr (wx3 hn) (hx3 hn) _ _ _
    b3 := fun hn => regValue_congr (wb3 hn) (hb3 hn) _ _ _
    b4 := fun hn => regValue_congr (wb4 hn) (hb4 hn) _ _ _
    b7 := fun hn => regValue_congr (wb7 hn) (hb7 hn) _ _ _
    p := fun hn => regValue_congr (wp hn) (hp hn) _ _ _ }

/-! ## The values of the steps -/

section Values
variable {s s' : State}

theorem u1Value_congr (h : s.OperandsAgree s' 1) : u1Value s' = u1Value s := by
  simp only [u1Value, h.ut, h.a6, h.a5]

theorem u2Value_congr (h : s.OperandsAgree s' 2) : u2Value s' = u2Value s := by
  simp only [u2Value, h.mc, h.x1 (by decide), h.md]

theorem u3Value_congr (h : s.OperandsAgree s' 3) : u3Value s' = u3Value s := by
  simp only [u3Value, h.x1 (by decide), h.x2 (by decide)]

theorem u4Value_congr (h : s.OperandsAgree s' 4) : u4Value s' = u4Value s := by
  simp only [u4Value, h.b5 (by decide)]

theorem u5Value_congr (h : s.OperandsAgree s' 5) : u5Value s' = u5Value s := by
  simp only [u5Value, h.b5 (by decide)]

theorem u6Value_congr (h : s.OperandsAgree s' 6) : u6Value s' = u6Value s := by
  simp only [u6Value, h.b6 (by decide), h.cb2]

theorem u7Value_congr (h : s.OperandsAgree s' 7) : u7Value s' = u7Value s := by
  simp only [u7Value, h.a2, h.b6 (by decide)]

theorem u8Value_congr (h : s.OperandsAgree s' 8) : u8Value s' = u8Value s := by
  simp only [u8Value, h.x1 (by decide), h.x2 (by decide)]

theorem u9Value_congr (h : s.OperandsAgree s' 9) : u9Value s' = u9Value s := by
  simp only [u9Value, h.a1, h.x3 (by decide), h.oss]

theorem u10Value_congr (h : s.OperandsAgree s' 10) : u10Value s' = u10Value s := by
  simp only [u10Value, h.a3, h.b6 (by decide)]

theorem u11Value_congr (h : s.OperandsAgree s' 11) : u11Value s' = u11Value s := by
  simp only [u11Value, h.b6 (by decide), h.cb1]

theorem u12Value_congr (h : s.OperandsAgree s' 12) : u12Value s' = u12Value s := by
  simp only [u12Value, h.x1 (by decide), h.x2 (by decide)]

theorem u13Value_congr (h : s.OperandsAgree s' 13) : u13Value s' = u13Value s := by
  simp only [u13Value, h.x3 (by decide), h.a4]

theorem u14Value_congr (h : s.OperandsAgree s' 14) : u14Value s' = u14Value s := by
  simp only [u14Value, h.up, h.b3 (by decide), h.oss]

theorem u15Value_congr (h : s.OperandsAgree s' 15) : u15Value s' = u15Value s := by
  simp only [u15Value, h.b7 (by decide), h.b4 (by decide)]

theorem u17Value_congr (h : s.OperandsAgree s' 17) : u17Value s' = u17Value s := by
  simp only [u17Value, h.p (by decide)]

theorem u18Value_congr (h : s.OperandsAgree s' 18) : u18Value s' = u18Value s := by
  simp only [u18Value, h.x1 (by decide), h.x2 (by decide), h.p (by decide)]

theorem u16Square_congr (h : s.OperandsAgree s' 16) : u16Square s' = u16Square s := by
  simp only [u16Square, h.p (by decide)]

end Values

/-! ## The same step on two blocks -/

/-- The blocks are the same but for `IGN`. -/
def CE.SameButForIgn (c c' : CE) : Prop := c' = { c with ign := c'.ign }

/-- What a pipeline step on agreeing operands makes of two blocks: the same fault, in step 16 also with the same first
assignment made; the same register written; or the same `PRESS`. -/
inductive PairEffect (c c' : CE) : CE → CE → Prop where
  | faults (k : Cause) (n : BitVec 5) : PairEffect c c' (c.faultEntry k n) (c'.faultEntry k n)
  | faultsAfterX1 (k : Cause) (n : BitVec 5) (v : W32) :
      PairEffect c c' ({ c with x1 := some v }.faultEntry k n) ({ c' with x1 := some v }.faultEntry k n)
  | advances {d d' : CE} (hframe : c.SameButForRun d) (hframe' : c'.SameButForRun d')
      (hagree : c.Agree c' → d.Agree d') (hign : c.SameButForIgn c' → d.SameButForIgn d') : PairEffect c c' d d'
  | completes (v : W32) (hlast : c.step = 18#5) :
      PairEffect c c' (CE.complete { c with press := some v }) (CE.complete { c' with press := some v })

theorem pairEffect_of_settle {s s' : State} {n : BitVec 5} {r r' : Except Cause W32} {put : CE → W32 → CE} (hr : r' = r)
    (hput : ∀ v, PairEffect s.ce s'.ce (put s.ce v) (put s'.ce v)) :
    PairEffect s.ce s'.ce (s.settle n r put).ce (s'.settle n r' put).ce := by
  rw [hr]
  cases r with
  | ok v => exact hput v
  | error k => exact .faults k n

/-- A step that writes one register. That agreement at step `n` gives agreement at the next one, the frame, and the
indifference to `IGN` are read off the update itself. -/
theorem pairEffect_of_write {s s' t t' : State} {i : Instr} {n : BitVec 5} {r r' : Except Cause W32}
    {put : CE → W32 → CE} (hexec : exec i s = .next t) (hexec' : exec i s' = .next t')
    (ho : exec i s = .next (s.settle n r put)) (ho' : exec i s' = .next (s'.settle n r' put)) (hr : r' = r)
    (hagree : ∀ v, s.ce.Agree s'.ce → (put s.ce v).Agree (put s'.ce v) := by simp_all [CE.Agree])
    (hframe : ∀ (c : CE) v, c.SameButForRun (put c v) := by exact fun _ _ => rfl)
    (hign : ∀ (c : CE) (b : Bool) v, put { c with ign := b } v = { put c v with ign := b } := by
      exact fun _ _ _ => rfl) : PairEffect s.ce s'.ce t.ce t'.ce := by
  cases ho.symm.trans hexec
  cases ho'.symm.trans hexec'
  refine pairEffect_of_settle hr fun v => .advances (hframe _ v) (hframe _ v) (hagree v) fun h => ?_
  rw [CE.SameButForIgn, h, hign]

theorem pairEffect_of_stepU16 {s s' : State} (hn : s.ce.step = 16#5) (hr : u16Square s' = u16Square s) :
    PairEffect s.ce s'.ce s.stepU16.ce s'.stepU16.ce := by
  cases hsquare : u16Square s with
  | error k =>
    rw [State.stepU16_of_square_error hsquare, State.stepU16_of_square_error (hr.trans hsquare)]
    exact .faults k 16#5
  | ok v =>
    rw [State.stepU16_of_square_ok hsquare, State.stepU16_of_square_ok (hr.trans hsquare)]
    cases (narrowS32 (v.toInt * 3038) >>= fun m => pure (asr32 m 16)) with
    | error k => exact .faultsAfterX1 k 16#5 v
    | ok w =>
      refine .advances rfl rfl (fun h => ?agree) fun h => ?ign
      case agree => simp_all [CE.Agree, State.settle]
      case ign => rw [CE.SameButForIgn, State.settle_ok, State.settle_ok, State.withCE_ce, State.withCE_ce,
        State.withCE_ce, State.withCE_ce, h]

theorem pairEffect_of_exec {s s' t t' : State} {i : Instr} {n : BitVec 5} (hn : s.ce.step = n) (henc : encode i = .pipe n)
    (hag : s.OperandsAgree s' n.toNat) (hexec : exec i s = .next t) (hexec' : exec i s' = .next t') :
    PairEffect s.ce s'.ce t.ce t'.ce := by
  cases i <;> cases henc
  case u1 => exact pairEffect_of_write hexec hexec' (exec_u1 s) (exec_u1 s') (u1Value_congr hag)
  case u2 => exact pairEffect_of_write hexec hexec' (exec_u2 s) (exec_u2 s') (u2Value_congr hag)
  case u3 => exact pairEffect_of_write hexec hexec' (exec_u3 s) (exec_u3 s') (u3Value_congr hag)
  case u4 => exact pairEffect_of_write hexec hexec' (exec_u4 s) (exec_u4 s') (u4Value_congr hag)
  case u5 => exact pairEffect_of_write hexec hexec' (exec_u5 s) (exec_u5 s') (u5Value_congr hag)
  case u6 => exact pairEffect_of_write hexec hexec' (exec_u6 s) (exec_u6 s') (u6Value_congr hag)
  case u7 => exact pairEffect_of_write hexec hexec' (exec_u7 s) (exec_u7 s') (u7Value_congr hag)
  case u8 => exact pairEffect_of_write hexec hexec' (exec_u8 s) (exec_u8 s') (u8Value_congr hag)
  case u9 => exact pairEffect_of_write hexec hexec' (exec_u9 s) (exec_u9 s') (u9Value_congr hag)
  case u10 => exact pairEffect_of_write hexec hexec' (exec_u10 s) (exec_u10 s') (u10Value_congr hag)
  case u11 => exact pairEffect_of_write hexec hexec' (exec_u11 s) (exec_u11 s') (u11Value_congr hag)
  case u12 => exact pairEffect_of_write hexec hexec' (exec_u12 s) (exec_u12 s') (u12Value_congr hag)
  case u13 => exact pairEffect_of_write hexec hexec' (exec_u13 s) (exec_u13 s') (u13Value_congr hag)
  case u14 => exact pairEffect_of_write hexec hexec' (exec_u14 s) (exec_u14 s') (u14Value_congr hag)
  case u15 => exact pairEffect_of_write hexec hexec' (exec_u15 s) (exec_u15 s') (u15Value_congr hag)
  case u17 => exact pairEffect_of_write hexec hexec' (exec_u17 s) (exec_u17 s') (u17Value_congr hag)
  case u16 =>
    cases hexec
    cases hexec'
    exact pairEffect_of_stepU16 hn (u16Square_congr hag)
  case u18 =>
    cases hexec
    cases hexec'
    exact pairEffect_of_settle (u18Value_congr hag) fun v => .completes v hn

/-! ## Two legal blocks on the sequencer's turn -/

/-- A micro-step is the one its number selects. -/
theorem decodePipe_of_encode {i : Instr} {n : BitVec 5} (h : encode i = .pipe n) : decodePipe n = .ok i := by
  cases i <;> cases h <;> rfl

/-- Two legal blocks on the same inputs, at the same step and with the same registers in use. -/
structure RunTogether (s s' : State) : Prop where
  inv : s.ce.Inv
  inv' : s'.ce.Inv
  mode : s.ce.mode = .computing
  mode' : s'.ce.mode = .computing
  inputs : s'.inputs = s.inputs
  agree : s.ce.Agree s'.ce

theorem RunTogether.step_pair {s s' : State} (h : RunTogether s s') (hturn : s.turn = .seq) (hturn' : s'.turn = .seq) :
    ∃ t t' : State, step s = .next t ∧ step s' = .next t' ∧ PairEffect s.ce s'.ce t.ce t'.ce ∧
      t.env = s.tick.env ∧ t'.env = s'.tick.env := by
  obtain ⟨i, t, henc, hexec, hstep⟩ := step_computing h.inv h.mode hturn
  obtain ⟨i', t', henc', hexec', hstep'⟩ := step_computing h.inv' h.mode' hturn'
  have hsame : i = i' := by
    have hdec := decodePipe_of_encode henc
    have hdec' := decodePipe_of_encode henc'
    rw [h.agree.1, hdec] at hdec'
    exact Except.ok.inj hdec'
  subst hsame
  have hin : s'.tick.inputs = s.tick.inputs :=
    (h.inv'.inputs_congr (t := s'.tick) h.mode' rfl rfl rfl).trans
      (h.inputs.trans (h.inv.inputs_congr (t := s.tick) h.mode rfl rfl rfl).symm)
  have hoperands : s.tick.OperandsAgree s'.tick s.ce.step.toNat := CE.Agree.operands h.agree h.inv h.mode hin
  exact ⟨t, t', hstep, hstep', pairEffect_of_exec (s := s.tick) (s' := s'.tick) rfl henc hoperands hexec hexec',
    env_of_exec_pipe henc hexec, env_of_exec_pipe henc' hexec'⟩

/-! ## Two runs on the same inputs (R13) -/

/-- Two runs that are over, with the same outcome. -/
structure CE.EndTogether (c c' : CE) : Prop where
  mode : c.mode = .idle
  mode' : c'.mode = .idle
  done : c.done = c'.done
  fault : c.fault = c'.fault
  finfo : c.finfo = c'.finfo
  results : c.done = true → c.temp = c'.temp ∧ c.press = c'.press

/-- While both run, neither is done or faulted. -/
theorem RunTogether.outcome {s s' : State} (h : RunTogether s s') :
    (s.ce.done = false ∧ s'.ce.done = false) ∧ (s.ce.fault = false ∧ s'.ce.fault = false) ∧
      (s.ce.finfo = 0x00#8 ∧ s'.ce.finfo = 0x00#8) := by
  have hbusy : s.ce.mode ≠ .idle := by rw [h.mode]; decide
  have hbusy' : s'.ce.mode ≠ .idle := by rw [h.mode']; decide
  have hfault := h.inv.fault_eq_false_of_busy hbusy
  have hfault' := h.inv'.fault_eq_false_of_busy hbusy'
  exact ⟨⟨h.inv.done_eq_false_of_busy hbusy, h.inv'.done_eq_false_of_busy hbusy'⟩, ⟨hfault, hfault'⟩,
    h.inv.finfo_of_not_fault hfault, h.inv'.finfo_of_not_fault hfault'⟩

theorem CE.SameButForRun.inputs_congr {s t : State} (hframe : s.ce.SameButForRun t.ce) (hinv : s.ce.Inv)
    (hm : s.ce.mode = .computing) : t.inputs = s.inputs :=
  hinv.inputs_congr hm (by rw [hframe]) (by rw [hframe]) (by rw [hframe])

theorem RunTogether.next {s s' t t' : State} (h : RunTogether s s') (hstep : step s = .next t)
    (hstep' : step s' = .next t') (heffect : PairEffect s.ce s'.ce t.ce t'.ce) :
    RunTogether t t' ∨ t.ce.EndTogether t'.ce := by
  obtain ⟨⟨hdone, hdone'⟩, ⟨hfault, hfault'⟩, hfinfo, hfinfo'⟩ := h.outcome
  have hinv := everyStepKeepsLegality s t h.inv hstep
  have hinv' := everyStepKeepsLegality s' t' h.inv' hstep'
  generalize hc : t.ce = c at heffect ⊢
  generalize hc' : t'.ce = c' at heffect ⊢
  cases heffect with
  | faults k n => exact .inr ⟨rfl, rfl, hdone.trans hdone'.symm, rfl, rfl, fun hd => by cases hdone.symm.trans hd⟩
  | faultsAfterX1 k n v =>
    exact .inr ⟨rfl, rfl, hdone.trans hdone'.symm, rfl, rfl, fun hd => by cases hdone.symm.trans hd⟩
  | completes v hlast =>
    obtain ⟨-, -, -, -, htemp, -⟩ := h.agree
    exact .inr ⟨rfl, rfl, rfl, hfault.trans hfault'.symm, hfinfo.trans hfinfo'.symm,
      fun _ => ⟨(htemp (by rw [hlast]; decide)).symm, rfl⟩⟩
  | advances hframe hframe' hagree =>
    subst hc hc'
    have hm : t.ce.mode = .computing := by rw [hframe]; exact h.mode
    have hm' : t'.ce.mode = .computing := by rw [hframe']; exact h.mode'
    have hin := (hframe'.inputs_congr h.inv' h.mode').trans
      (h.inputs.trans (hframe.inputs_congr h.inv h.mode).symm)
    exact .inl ⟨hinv, hinv', hm, hm', hin, hagree h.agree⟩

/-- On the sequencer's turn an idle block stays as it is. -/
theorem step_idle {s : State} (hm : s.ce.mode = .idle) (hturn : s.turn = .seq) : step s = .next s.tick :=
  step_of_fetch_none hturn ((State.fetch_seq hturn).trans (State.microCode_idle hm))

theorem run_together (n : Nat) {s s' : State} (h : RunTogether s s' ∨ s.ce.EndTogether s'.ce)
    (hev : s.env.events = []) (hev' : s'.env.events = []) :
    ∃ t t' : State, Host.Core.run Sys2Proof.core n s = .next t ∧ Host.Core.run Sys2Proof.core n s' = .next t' ∧
      (RunTogether t t' ∨ t.ce.EndTogether t'.ce) := by
  induction n generalizing s s' with
  | zero => exact ⟨s, s', rfl, rfl, h⟩
  | succ n ih =>
    have hstep : ∃ t t' : State, step s = .next t ∧ step s' = .next t' ∧
        (RunTogether t t' ∨ t.ce.EndTogether t'.ce) ∧ t.env.events = [] ∧ t'.env.events = [] := by
      rcases h with h | h
      · obtain ⟨t, t', hstep, hstep', heffect, henv, henv'⟩ := h.step_pair (State.turn_nil hev) (State.turn_nil hev')
        exact ⟨t, t', hstep, hstep', h.next hstep hstep' heffect, by simp [henv, hev], by simp [henv', hev']⟩
      · exact ⟨_, _, step_idle h.mode (State.turn_nil hev), step_idle h.mode' (State.turn_nil hev'), .inr h,
          by simp [hev], by simp [hev']⟩
    obtain ⟨t, t', hs, hs', hnext, hevt, hevt'⟩ := hstep
    obtain ⟨u, u', hrun, hrun', hend⟩ := ih hnext hevt hevt'
    exact ⟨u, u', (run_succ hs n).trans hrun, (run_succ hs' n).trans hrun', hend⟩

/-- Settles O57: at step 1 no register is in use yet, so the two runs go together; wherever they are after 18 turns, they
have the same outcome. -/
theorem runOutcomeDependsOnInputsOnly : Obligations.RunOutcomeDependsOnInputsOnly := by
  intro s s' hinv hinv' hm hm' hstep hstep' hev hev' hin
  have hagree : s.ce.Agree s'.ce := by simp [CE.Agree, hstep, hstep']
  obtain ⟨t, t', hrun, hrun', hend⟩ := run_together 18 (.inl ⟨hinv, hinv', hm, hm', hin.symm, hagree⟩) hev hev'
  refine ⟨t, t', hrun, hrun', ?_⟩
  rcases hend with h | h
  · obtain ⟨⟨hdone, hdone'⟩, ⟨hfault, hfault'⟩, hfinfo, hfinfo'⟩ := h.outcome
    exact ⟨hdone.trans hdone'.symm, hfault.trans hfault'.symm, hfinfo.trans hfinfo'.symm,
      fun hd => by cases hdone.symm.trans hd⟩
  · exact ⟨h.done, h.fault, h.finfo, h.results⟩

end Sys2Proof.Machine
end

section
/-! PROOFS. A run with host transactions between its micro-steps ends as it does without them, but for `IGN` (spec/00_scope.md
R12, R13, spec/20_memory.md R73). -/

namespace Sys2Proof.Machine

/-! ## Blocks that are the same but for `IGN` -/

theorem CE.SameButForIgn.inv {c c' : CE} (h : c.SameButForIgn c') (hinv : c.Inv) : c'.Inv := by
  rw [h]
  exact { hinv with }

theorem CE.SameButForIgn.agree {c c' : CE} (h : c.SameButForIgn c') : c.Agree c' := by
  rw [h]
  simp [CE.Agree]

theorem CE.SameButForIgn.of_ignored {c c' : CE} {w : BitVec 17} (he : HostEffect c w c') (hacc : ¬ c.accepts = true) :
    c'.SameButForIgn c := by
  obtain ⟨-, rfl⟩ | ⟨-, rfl⟩ := he.of_not_accepts hacc <;> rfl

theorem CE.SameButForIgn.trans {c d e : CE} (h : c.SameButForIgn d) (h' : d.SameButForIgn e) : c.SameButForIgn e := by
  rw [CE.SameButForIgn, h', h]

theorem PairEffect.sameButForIgn {c c' d d' : CE} (he : PairEffect c c' d d') (h : c.SameButForIgn c') :
    d.SameButForIgn d' := by
  cases he with
  | faults | faultsAfterX1 | completes => rw [h]; rfl
  | advances hframe hframe' hagree hign => exact hign h

theorem CE.SameButForIgn.runTogether {s u : State} (h : s.ce.SameButForIgn u.ce) (hinv : s.ce.Inv)
    (hm : s.ce.mode = .computing) : RunTogether s u where
  inv := hinv
  inv' := h.inv hinv
  mode := hm
  mode' := by rw [h]; exact hm
  inputs := hinv.inputs_congr hm (by rw [h]) (by rw [h]) (by rw [h])
  agree := h.agree

/-! ## The run with and without the host's transactions -/

/-- The block is in a run with at most `n` turns left before its last step, or its run has ended with a fault; either way
it accepts nothing from the host. -/
def CE.InRun (c : CE) (n : Nat) : Prop := (c.mode = .computing ∧ c.step.toNat + n ≤ 18) ∨ c.fault = true

theorem CE.InRun.not_accepts {c : CE} {n : Nat} (h : c.InRun n) : ¬ c.accepts = true := by
  rcases h with ⟨hm, -⟩ | hf
  · exact CE.not_accepts_of_busy (c.busy_iff.2 (by rw [hm]; decide))
  · exact CE.not_accepts_of_fault hf

theorem pipeEffect_of_step {s t : State} (hinv : s.ce.Inv) (hm : s.ce.mode = .computing) (hturn : s.turn = .seq)
    (hstep : step s = .next t) : PipeEffect s.ce t.ce := by
  obtain ⟨i, u, henc, hexec, hu⟩ := step_computing hinv hm hturn
  cases hu.symm.trans hstep
  exact pipeEffect_of_exec (s := s.tick) henc hexec

/-- A turn of the sequencer in both. -/
theorem seq_turn_in_both {s u : State} (h : s.ce.SameButForIgn u.ce) (hinv : s.ce.Inv) {n : Nat} (hrun : s.ce.InRun n)
    (hturn : s.turn = .seq) (hturn' : u.turn = .seq) :
    ∃ t v : State, step s = .next t ∧ step u = .next v ∧ t.ce.SameButForIgn v.ce ∧
      t.env.events = s.env.events.tail ∧ v.env.events = u.env.events.tail ∧ (n ≠ 0 → t.ce.InRun (n - 1)) := by
  rcases hrun with ⟨hm, hn⟩ | hf
  · obtain ⟨t, v, hstep, hstep', heffect, henv, henv'⟩ := (h.runTogether hinv hm).step_pair hturn hturn'
    refine ⟨t, v, hstep, hstep', heffect.sameButForIgn h, by rw [henv]; rfl, by rw [henv']; rfl, fun hne => ?_⟩
    have hpipe := pipeEffect_of_step hinv hm hturn hstep
    generalize t.ce = c at hpipe ⊢
    cases hpipe with
    | faults => exact .inr rfl
    | advances hframe hnext hlt => exact .inl ⟨by rw [hframe]; exact hm, by rw [hnext]; bv_omega⟩
    | completes v hlast =>
      rw [hlast] at hn
      exact absurd hn (by simp; omega)
  · have hidle := hinv.mode_eq_idle_of_fault hf
    exact ⟨_, _, step_idle hidle hturn, step_idle (by rw [h]; exact hidle) hturn', h, rfl, rfl, fun _ => .inr hf⟩

/-- No instruction touches the events still to come. -/
theorem exec_keeps_events {s t : State} {i : Instr} (hexec : exec i s = .next t) : t.env.events = s.env.events := by
  cases i with
  | rd | nop | cmdReserved => cases hexec; rfl
  | wr a d =>
    cases hexec
    obtain h | ⟨-, -, h⟩ | ⟨-, -, -, h⟩ := s.writeByte_cases a d <;> rw [h] <;> rfl
  | load =>
    cases hexec
    obtain h | ⟨-, -, h⟩ := s.loadCommand_cases <;> rw [h] <;> rfl
  | compensate =>
    cases hexec
    obtain h | ⟨-, -, -, h⟩ := s.compensateCommand_cases <;> rw [h] <;> rfl
  | ldstep k =>
    cases hexec
    rw [State.loadStep_env, State.afterRequest_events]
  | _ => rw [env_of_exec_pipe rfl hexec]

/-- By the events before the last turn: a transaction of the host moves only the run that has it, a turn moves both. -/
theorem interleaved_run (es : List Event) {s u : State} {rest : List Event} (h : s.ce.SameButForIgn u.ce)
    (hinv : s.ce.Inv) (hrun : s.ce.InRun (es.count .seq)) (hev : s.env.events = es ++ rest) (hev' : u.env.events = [])
    (hreset : .reset ∉ es) :
    ∃ t v : State, Host.Core.run Sys2Proof.core es.length s = .next t ∧
      Host.Core.run Sys2Proof.core (es.count .seq) u = .next v ∧ t.ce.SameButForIgn v.ce ∧ t.ce.Inv ∧ t.ce.InRun 0 ∧
      t.env.events = rest ∧ v.env.events = [] := by
  induction es generalizing s u with
  | nil => exact ⟨s, u, rfl, rfl, h, hinv, hrun, hev, hev'⟩
  | cons e es ih =>
    have hturn : s.turn = e := State.turn_cons hev
    cases e with
    | reset => simp at hreset
    | host w =>
      obtain ⟨t, hstep, hexec⟩ := step_of_host hturn
      have heffect : HostEffect s.ce w t.ce := hostEffect_of_exec (s := s.tick) hexec
      have hevents : t.env.events = es ++ rest := by rw [exec_keeps_events hexec, State.tick_events, hev]; rfl
      have hsame := CE.SameButForIgn.of_ignored heffect hrun.not_accepts
      have hrun' : t.ce.InRun (es.count .seq) := by
        rw [hsame] at hrun
        simpa [CE.InRun] using hrun
      obtain ⟨t', v', hrunt, hrunv, hend⟩ := ih (hsame.trans h) (everyStepKeepsLegality s t hinv hstep) hrun' hevents hev'
        (by simpa using hreset)
      refine ⟨t', v', (run_succ hstep _).trans hrunt, ?_, hend⟩
      rw [List.count_cons_of_ne (by simp)]
      exact hrunv
    | seq =>
      obtain ⟨t, v, hstep, hstep', hsame, hevt, hevv, hnext⟩ := seq_turn_in_both h hinv hrun hturn (State.turn_nil hev')
      obtain ⟨t', v', hrunt, hrunv, hend⟩ := ih hsame (everyStepKeepsLegality s t hinv hstep)
        (by simpa using hnext (by simp)) (by rw [hevt, hev]; rfl) (by rw [hevv, hev']; rfl) (by simpa using hreset)
      refine ⟨t', v', (run_succ hstep _).trans hrunt, ?_, hend⟩
      rw [List.count_cons_self]
      exact (run_succ hstep' _).trans hrunv

/-- Settles O58, by `interleaved_run` up to the last turn, which both runs then make. -/
theorem interleavedHostDoesNotChangeARun : Obligations.InterleavedHostDoesNotChangeARun := by
  intro s es hinv hm hstep hev hreset hcount
  obtain ⟨t, v, hrun, hrun', hsame, hinvt, hin, hevt, hevv⟩ := interleaved_run es (s := s)
    (u := { s with env := { s.env with events := [] } }) rfl hinv (.inl ⟨hm, by rw [hstep, hcount]; decide⟩) hev rfl hreset
  obtain ⟨t', v', hlast, hlast', hend, -⟩ :=
    seq_turn_in_both hsame hinvt hin (State.turn_cons hevt) (State.turn_nil hevv)
  rw [hcount] at hrun'
  refine ⟨t', v', (run_add hrun 1).trans (run_one hlast), (run_add hrun' 1).trans (run_one hlast'), ?_⟩
  rw [hend]

end Sys2Proof.Machine
end
